-- ==== Sys2Proof/Word.lean ====
section
/-! DEFINITION. The word types of TERNTX: the widths `10_state.md` gives its registers. -/

namespace Sys2Proof

/-- A host-visible register: 32 bits, read or written whole (R20, R65). -/
abbrev Word := BitVec 32

/-- The level of an output line, one bit: `true` is high (1), `false` is low (0) (R60). -/
abbrev Level := Bool

end Sys2Proof
end

