-- ==== Sys2Proof/Config.lean ====
section
/-! DEFINITION. What one TERNTX fixes: the constants of `00_scope.md` R7, the build-time parameters of R8, and the
free values: what a `RESET` leaves in the registers it does not specify (`10_state.md` R46, U6), and what the text parser
forwards for an integer no unsigned field holds (R195, log 33). -/

namespace Sys2Proof

/-- `TX_ORDER` (R86): which end of the accumulator is sent first. -/
inductive TxOrder where
  | lspairFirst
  | mspairFirst
  deriving DecidableEq, Repr

/-- The level at which a hold is performed (R171 event level, R173 tick level). -/
inductive Timing where
  | event
  | tick
  deriving DecidableEq, Repr

/-- The build-time parameters a machine is made with (R8, R177). No step writes them. -/
structure Build where
  txOrder : TxOrder
  timing  : Timing
  deriving DecidableEq, Repr

namespace Config

/-- Encoder iterations, symbols of a telegram (R7 `N_TRITS`). -/
def nTrits : Nat := 12
/-- Greatest legal repeat exponent (R7 `REP_EXP_MAX`). -/
def repExpMax : Int := 7
/-- Short hold multiplier (R7 `M_SHORT`). -/
def mShort : BitVec 5 := 1#5
/-- Long hold multiplier (R7 `M_LONG`). -/
def mLong : BitVec 5 := 3#5
/-- Multiplier of the sync pulse's high hold (R7 `M_SYNC_HIGH`). -/
def mSyncHigh : BitVec 5 := 1#5
/-- Multiplier of the sync pulse's low hold (R7 `M_SYNC_LOW`). -/
def mSyncLow : BitVec 5 := 31#5
/-- Ticks of the time base in one microsecond (R8 `TICKS_PER_US`, the value taken). -/
def ticksPerUs : Nat := 1

/-- The text parser's fallbacks, and the reset values of the request registers (R7, R46, R84). -/
def fallbackPin : Word := 9#32
def fallbackCode : Word := 0xFF#32
def fallbackPeriod : Word := 320#32
def fallbackRepeat : Word := 3#32
/-- Reset value of `REP_LIMIT` (R25). -/
def repLimitReset : Word := 100#32

/-- `TX_ORDER = LSPAIR_FIRST`, the value taken (R8, R86); holds at the event level (DESIGN CHOICE, log 5). -/
def buildTaken : Build := ⟨.lspairFirst, .event⟩

/-! Free values: what the `n`-th `RESET` leaves in each register that R46 marks unspecified (U6 "any value"). -/

opaque resetK : Nat → BitVec 7
opaque resetI : Nat → Fin 12
opaque resetH : Nat → BitVec 2
opaque resetReps : Nat → BitVec 8
opaque resetAcc : Nat → BitVec 24
opaque resetLPin : Nat → Word
opaque resetLPeriod : Nat → Word
opaque resetDly : Nat → BitVec 37

/-! Free values: what the external parser forwards for a negative integer in a field that is read as unsigned; R195 states
no value there (DESIGN CHOICE, log 33). -/

opaque parsedPin : Nat → Word
opaque parsedCode : Nat → Word
opaque parsedPeriod : Nat → Word

end Config
end Sys2Proof
end

