-- ==== Sys2Proof/Syntax.lean ====
section
/-! DEFINITION. The operations of TERNTX, one constructor per row of `spec/opcode_table.json` (R97), and the encoded
forms in which they reach the block, one constructor per format (R80). -/

namespace Sys2Proof

/-- The three trits (R15, R87): a trit type of three values cannot write the reserved code `0b11` down (R94). -/
inductive Trit where
  | t0
  | t1
  | t2
  deriving DecidableEq, Repr

/-- The operations of format `EVENT` (R80, R97): they have no bits and are selected by an event. -/
inductive Event where
  | encStep
  | tritsel
  | forceLow
  | gate
  | accept
  | nextTelegram
  | finish
  | tick
  | reset
  deriving DecidableEq, Repr

/-- An operation as it reaches the block: the format of R80 and its bits. `CODE` has no selector bits, so its two
operations are told apart by the place that uses them (R97 "part of `ENCODE`", "part of `START`"). -/
inductive OpWord where
  /-- `HOST` (R93): one register transaction. -/
  | host (w : BitVec 36)
  /-- `REQ` (R81): a request record. -/
  | req (w : BitVec 128)
  /-- `CODE` (R82) as the operand of `MASK`. -/
  | maskCode (w : BitVec 32)
  /-- `CODE` (R82) as the operand of `ENCODE`. -/
  | encodeCode (w : BitVec 32)
  /-- `TRIT` (R87): one packed trit. -/
  | trit (w : BitVec 2)
  /-- `HOLD` (R90): a hold descriptor. -/
  | hold (w : BitVec 6)
  /-- `SEQ` (R92): the sequencer's state code. -/
  | seq (w : BitVec 2)
  /-- `LINE` (R83): one line of text. -/
  | line (text : List Char)
  /-- `EVENT`: no bits. -/
  | event (e : Event)
  deriving DecidableEq, Repr

/-- The operations (R97). Bits an encoding ignores are kept as operands, so that no bit of a word is lost. -/
inductive Instr where
  -- HOST, W = 1 (R190, R192, R197)
  | wrPin (v : Word)
  | wrCode (v : Word)
  | wrPeriod (v : Word)
  | wrRepeat (v : Word)
  | wrRepLimit (v : Word)
  | start (v : Word)
  | wrNopCtrl (v : Word)
  | wrNopStatus (v : Word)
  | wrNopUnused (v : Word)
  -- HOST, W = 0 (R191, R193); `x` is ignored
  | rdPin (x : Word)
  | rdCode (x : Word)
  | rdPeriod (x : Word)
  | rdRepeat (x : Word)
  | rdRepLimit (x : Word)
  | rdZeroCtrl (x : Word)
  | rdStatus (x : Word)
  | rdZeroUnused (x : Word)
  -- TRIT (R137, R138, R139)
  | sym0
  | sym1
  | sym2
  -- SEQ (R155, R135, R136, R142)
  | idle
  | repeating
  | emit
  | sync
  -- HOLD (R171)
  | hold (l : Level) (m : BitVec 5)
  -- REQ (R151)
  | tx (pin code period rep : Word)
  -- CODE (R110, R113)
  | mask (code : Word)
  | encode (code : Word)
  -- LINE (R195)
  | parse (text : List Char)
  -- EVENT (R111, R115, R131, R133, R134, R147, R148, R173, R240)
  | encStep
  | tritsel
  | forceLow
  | gate
  | accept
  | nextTelegram
  | finish
  | tick
  | reset
  deriving DecidableEq, Repr

/-- The mnemonic of an operation, as the table spells it (R97). -/
def Instr.mnemonic : Instr → String
  | .wrPin _ => "WR.PIN"
  | .wrCode _ => "WR.CODE"
  | .wrPeriod _ => "WR.PERIOD"
  | .wrRepeat _ => "WR.REPEAT"
  | .wrRepLimit _ => "WR.REP_LIMIT"
  | .start _ => "START"
  | .wrNopCtrl _ => "WR.NOP"
  | .wrNopStatus _ => "WR.NOP"
  | .wrNopUnused _ => "WR.NOP"
  | .rdPin _ => "RD.PIN"
  | .rdCode _ => "RD.CODE"
  | .rdPeriod _ => "RD.PERIOD"
  | .rdRepeat _ => "RD.REPEAT"
  | .rdRepLimit _ => "RD.REP_LIMIT"
  | .rdZeroCtrl _ => "RD.ZERO"
  | .rdStatus _ => "RDSTATUS"
  | .rdZeroUnused _ => "RD.ZERO"
  | .sym0 => "SYM0"
  | .sym1 => "SYM1"
  | .sym2 => "SYM2"
  | .idle => "IDLE"
  | .repeating => "REPEATING"
  | .emit => "EMIT"
  | .sync => "SYNC"
  | .hold _ _ => "HOLD"
  | .tx _ _ _ _ => "TX"
  | .mask _ => "MASK"
  | .encode _ => "ENCODE"
  | .parse _ => "PARSE"
  | .encStep => "ENC.STEP"
  | .tritsel => "TRITSEL"
  | .forceLow => "FORCE_LOW"
  | .gate => "GATE"
  | .accept => "ACCEPT"
  | .nextTelegram => "NEXT"
  | .finish => "FINISH"
  | .tick => "TICK"
  | .reset => "RESET"

end Sys2Proof
end

