-- ==== Sys2Proof/Machine/State.lean ====
section
/-! DEFINITION. The state of TERNTX, every piece `10_state.md` gives it, the environment's state of R43 beside it, the
reasons a step can stop, and the state after reset. -/

namespace Sys2Proof.Machine

/-- An event of the trace (R10): a call of `set_output` and a blocking wait, in microseconds. -/
inductive TraceEvent where
  | set (line : Word) (level : Level)
  | wait (us : Nat)
  deriving DecidableEq, Repr

/-- `STATE` (R31). -/
inductive SeqState where
  | idle
  | repeating
  | emittingSymbol
  | syncPulse
  deriving DecidableEq, Repr

/-- The values `RESULT` takes (R28); code 3 is never produced (R94) and cannot be written down. -/
inductive Result where
  | none
  | ok
  | malformedRequest
  deriving DecidableEq, Repr

/-- The temporaries of `ENCODE` and the trit last extracted or selected (R37, R111, R113, R136). -/
structure Temps where
  work : BitVec 20
  n    : BitVec 4
  a    : BitVec 24
  t    : BitVec 2
  deriving DecidableEq, Repr

/-- What happens next (log 1): the sequencer takes its turn, an input arrives, or the reset input is asserted at the
same instant as another input, over which it wins (R217), or the reset input will be asserted `ticks` ticks from now, be it
within a hold (R243, log 32). -/
inductive Turn where
  | sequencer
  | input (w : OpWord)
  | resetWins (lost : OpWord)
  | resetAfter (ticks : Nat)
  deriving DecidableEq, Repr

/-- The reasons the block stops with a fault: none. The block's one error is taken as a next state (R210, R213). -/
inductive Fault where
  deriving DecidableEq, Repr

/-- The reasons a step has no next state. -/
inductive Refusal where
  /-- An operation without a meaning, by its mnemonic. Raised by no arm of `exec`. Safe. -/
  | notModelled (mnemonic : String)
  /-- `START` or `TX` while `STATE` is not `Idle`: no next state is defined (R250, U1). Safe. -/
  | startWhileBusy
  /-- A pair `0b11` where a trit is read: `EMIT`, `TX`, and decoding a `TRIT` word (R94, U4). Safe. -/
  | reservedTrit
  /-- An operation whose `pre:` line or selecting condition does not hold, or any operation of the block but `TICK` and
  `RESET` while a hold is in progress: the step is not enabled (R92, R97, R134, R135, R136, R142, R147, R148, R155, R170,
  R173, R174). Safe. -/
  | notSelected
  /-- A text line outside what the spec takes of the external parser: hexadecimal, a number too large (for its field, or
  for 32 bits), a fifth field, a line end; U15 asks for a refusal (R195, D16). Raised by `PARSE` and by decoding a `LINE`.
  Safe. -/
  | parseOutsideSpec
  deriving DecidableEq, Repr

/-- The state. -/
structure State where
  -- host-visible registers (R20 to R25); CTRL stores nothing (R26), STATUS is computed (R27)
  pin       : Word
  code      : Word
  period    : Word
  repeatExp : Word
  repLimit  : Word
  result    : Result
  -- sequencer position (R30 to R34)
  st        : SeqState
  k         : BitVec 7
  i         : Fin 12
  h         : BitVec 2
  -- latched per request (R35, R36, R39, R40)
  reps      : BitVec 8
  acc       : BitVec 24
  lPin      : Word
  lPeriod   : Word
  -- temporaries (R37)
  tmp       : Temps
  -- timing controller and output (R38, R41, R42)
  hact      : Bool
  dly       : BitVec 37
  out       : Level
  -- the environment's state (R43): levels by line identifier, sorted; time in ticks; events, oldest first
  lines     : List (Nat × Level)
  now       : Nat
  trace     : List TraceEvent
  -- the model's own: latest read result, ticks passed in the hold, next free value, pending turns, parameters
  readData  : Word
  held      : BitVec 37
  free      : Nat
  agenda    : List Turn
  build     : Build
  deriving DecidableEq, Repr

/-- The machine right after reset (R46). The registers R46 marks unspecified, and the model's own fields, hold the
values that logs 7, 8, 9, 11, 16 and 25 name. -/
def State.reset : State where
  pin := Config.fallbackPin
  code := Config.fallbackCode
  period := Config.fallbackPeriod
  repeatExp := Config.fallbackRepeat
  repLimit := Config.repLimitReset
  result := .none
  st := .idle
  k := 0#7
  i := 0
  h := 0#2
  reps := 0#8
  acc := 0#24
  lPin := 0#32
  lPeriod := 0#32
  tmp := ⟨0#20, 0#4, 0#24, 0#2⟩
  hact := false
  dly := 0#37
  out := false
  lines := []
  now := 0
  trace := []
  readData := 0#32
  held := 0#37
  free := 0
  agenda := []
  build := Config.buildTaken

end Sys2Proof.Machine
end

