-- ==== Sys2Proof/Machine/Flags.lean ====
section
/-! DEFINITION. The block's two flags and the register that shows them (`10_state.md` R27, R28, R31, R47). -/

namespace Sys2Proof.Machine

/-- The two-bit code of `STATE` (R31, R92). -/
def SeqState.bits : SeqState → BitVec 2
  | .idle => 0b00#2
  | .repeating => 0b01#2
  | .emittingSymbol => 0b10#2
  | .syncPulse => 0b11#2

/-- The state a two-bit code names (R31). -/
def seqStateOf (c : BitVec 2) : SeqState :=
  match c.getLsbD 1, c.getLsbD 0 with
  | false, false => .idle
  | false, true => .repeating
  | true, false => .emittingSymbol
  | true, true => .syncPulse

/-- The code of `RESULT` (R28). -/
def resultBits : Result → BitVec 2
  | .none => 0#2
  | .ok => 1#2
  | .malformedRequest => 2#2

/-- `BUSY`: 1 exactly when `STATE` is not `Idle` (R27). -/
def busy (s : State) : Bool := s.st != .idle

/-- `STATUS` as it reads (R27, R193): `{ 0[28:0], RESULT[1:0], BUSY }`. -/
def statusWord (s : State) : Word := 0#29 ++ resultBits s.result ++ BitVec.ofBool (busy s)

end Sys2Proof.Machine
end

