-- ==== Sys2Proof/Machine/Operands.lean ====
section
/-! DEFINITION. How each operand is assembled (`30_encoding.md` R82): the masked code, the repeat exponent and count,
the trit slice, levels and multipliers of holds, hold durations. -/

namespace Sys2Proof.Machine

/-- `code[19:0]` (R110). -/
def maskedCode (code : Word) : BitVec 20 := code.extractLsb' 0 20

/-- `e = int(REPEAT)` (R23). -/
def repeatExponent (r : Word) : Int := r.toInt

/-- `2^e`, used only for `0 <= e <= 7` (R133, R134). -/
def expandedCount (e : Int) : Nat := 2 ^ e.toNat

/-- The test of `GATE` (R133): the exponent is in range and the expanded count does not exceed the limit. -/
def gateAccepts (rep limit : Word) : Bool :=
  let e := repeatExponent rep
  decide (0 ≤ e ∧ e ≤ Config.repExpMax ∧ expandedCount e ≤ limit.toNat)

/-- One `ENC.STEP` (R111): the extracted trit, `WORK'` and `A'`. -/
def encStep (work : BitVec 20) (a : BitVec 24) : BitVec 2 × BitVec 20 × BitVec 24 :=
  let t : BitVec 2 := BitVec.ofNat 2 (work.toNat % 3)
  (t, BitVec.ofNat 20 (work.toNat / 3), (a <<< 2) ||| t.setWidth 24)

/-- One iteration of `ENCODE`'s loop on the temporaries (R113). -/
def encIter (x : Temps) : Temps :=
  let r := encStep x.work x.a
  { work := r.2.1, n := x.n + 1#4, a := r.2.2, t := r.1 }

/-- `j` iterations (R113). -/
def encLoop : Nat → Temps → Temps
  | 0, x => x
  | j + 1, x => encLoop j (encIter x)

/-- The temporaries after `ENCODE` (R113), from what `t` held before. -/
def encTemps (code : Word) (t : BitVec 2) : Temps :=
  encLoop Config.nTrits { work := maskedCode code, n := 0#4, a := 0#24, t := t }

/-- `ENCODE(code)` (R113): the 24-bit accumulator. -/
def encodeAcc (code : Word) : BitVec 24 := (encTemps code 0#2).a

/-- `TRITSEL` (R115) under either `TX_ORDER` (R86). -/
def tritsel (order : TxOrder) (acc : BitVec 24) (i : Fin 12) : BitVec 2 :=
  match order with
  | .lspairFirst => acc.extractLsb' (2 * i.val) 2
  | .mspairFirst => acc.extractLsb' (22 - 2 * i.val) 2

/-- The trit a pair of bits codes, none for the reserved `0b11` (R87, R94). -/
def tritOf (b : BitVec 2) : Option Trit :=
  match b.getLsbD 1, b.getLsbD 0 with
  | false, false => some .t0
  | false, true => some .t1
  | true, false => some .t2
  | true, true => none

/-- The level of hold `H`: high when `H` is even (R88). -/
def levelOf (h : BitVec 2) : Level := !h.getLsbD 0

/-- The pulse-shape table `MULT(t, H)` (R88). -/
def mult (t : Trit) (h : BitVec 2) : BitVec 5 :=
  match t, h.getLsbD 1, h.getLsbD 0 with
  | .t0, false, false => Config.mShort
  | .t0, false, true => Config.mLong
  | .t0, true, false => Config.mShort
  | .t0, true, true => Config.mLong
  | .t1, false, false => Config.mLong
  | .t1, false, true => Config.mShort
  | .t1, true, false => Config.mLong
  | .t1, true, true => Config.mShort
  | .t2, false, false => Config.mShort
  | .t2, false, true => Config.mLong
  | .t2, true, false => Config.mLong
  | .t2, true, true => Config.mShort

/-- `SYNC_MULT(H)` (R89); R142's `else` branch is every other `H`. -/
def syncMult (h : BitVec 2) : BitVec 5 := if h = 0#2 then Config.mSyncHigh else Config.mSyncLow

/-- `DURATION(m, P)` in microseconds: the exact product (R172). -/
def duration (m : BitVec 5) (period : Word) : Nat := m.toNat * period.toNat

/-- The micro-program of a symbol as hold descriptors, `(level, multiplier)` in order (R91). -/
def symbolProgram : Trit → List (Level × BitVec 5)
  | .t0 => [(true, 1#5), (false, 3#5), (true, 1#5), (false, 3#5)]
  | .t1 => [(true, 3#5), (false, 1#5), (true, 3#5), (false, 1#5)]
  | .t2 => [(true, 1#5), (false, 3#5), (true, 3#5), (false, 1#5)]

/-- The micro-program of the sync pulse (R91). -/
def syncProgram : List (Level × BitVec 5) := [(true, 1#5), (false, 31#5)]

/-- The cursor's values in order (R141). -/
def cursors : List (Fin 12) := [0, 1, 2, 3, 4, 5, 6, 7, 8, 9, 10, 11]

/-- The hold indices of a symbol in order (R140). -/
def holdIndices : List (BitVec 2) := [0#2, 1#2, 2#2, 3#2]

/-- The twelve trits of an accumulator in transmission order, if none is the reserved code (R115, R118). -/
def tritsOf (order : TxOrder) (acc : BitVec 24) : Option (List Trit) :=
  cursors.mapM fun i => tritOf (tritsel order acc i)

/-- `SYMBOL(pin, t, P)` of R151. -/
def symbolTrace (pin : Word) (t : Trit) (period : Word) : List TraceEvent :=
  holdIndices.flatMap fun h => [.set pin (levelOf h), .wait (duration (mult t h) period)]

/-- `SYNCP(pin, P)` of R151. -/
def syncTrace (pin period : Word) : List TraceEvent :=
  [.set pin true, .wait (duration Config.mSyncHigh period), .set pin false, .wait (duration Config.mSyncLow period)]

/-- `TELEGRAM(pin, acc, P)` of R151, of the trits in transmission order. -/
def telegramTrace (pin : Word) (trits : List Trit) (period : Word) : List TraceEvent :=
  trits.flatMap (fun t => symbolTrace pin t period) ++ syncTrace pin period

/-- The telegrams of a request, `count` times the same (R151, R73). -/
def telegramsTrace (count : Nat) (pin : Word) (trits : List Trit) (period : Word) : List TraceEvent :=
  (List.replicate count (telegramTrace pin trits period)).flatten

/-- The time the waits of a trace take, in microseconds (R62). -/
def totalWait : List TraceEvent → Nat
  | [] => 0
  | .set _ _ :: r => totalWait r
  | .wait n :: r => n + totalWait r

/-- White space between the fields of a text line: space and tab (DESIGN CHOICE, log 15). -/
def isBlank (c : Char) : Bool := c == ' ' || c == '\t'

/-- The white-space separated items of a line (R195); `cur` is the item being read, reversed. -/
def splitFields : List Char → List Char → List (List Char)
  | [], [] => []
  | [], cur => [cur.reverse]
  | c :: r, cur =>
    if isBlank c then
      match cur with
      | [] => splitFields r []
      | d :: ds => (d :: ds).reverse :: splitFields r []
    else splitFields r (c :: cur)

/-- A text field: a decimal integer, a field that does not parse, or a hexadecimal one, which the spec leaves out. -/
inductive FieldValue where
  | value (z : Int)
  | malformed
  | outside
  deriving DecidableEq, Repr

/-- The value of decimal digits, most significant first, if there is at least one and all are digits. -/
def decimalDigits (cs : List Char) : Option Nat :=
  if !cs.isEmpty && cs.all Char.isDigit then some (cs.foldl (fun a c => 10 * a + (c.toNat - 48)) 0) else none

/-- Is the character a hexadecimal digit? -/
def isHexDigit (c : Char) : Bool :=
  c.isDigit || ('a' ≤ c && c ≤ 'f') || ('A' ≤ c && c ≤ 'F')

/-- A hexadecimal number after its optional sign: `0x` or `0X` and at least one digit (log 15). -/
def isHexNumber : List Char → Bool
  | '0' :: x :: d :: ds => (x == 'x' || x == 'X') && (d :: ds).all isHexDigit
  | _ => false

/-- One text field (R195, D16): decimal with an optional leading `-`. -/
def readField (cs : List Char) : FieldValue :=
  let (neg, digits) := match cs with
    | '-' :: r => (true, r)
    | r => (false, r)
  if isHexNumber digits then .outside
  else match decimalDigits digits with
    | some v => .value (if neg then -(v : Int) else v)
    | none => .malformed

/-- A field's register value: its own, its fallback, or none where the spec leaves the field out (R195, U15): too large
for the field, which has `greatest` as its greatest value (R81), or below what 32 bits hold. A negative integer that an
unsigned field does not hold takes the free value `open32` (log 33). -/
def fieldWord (least greatest : Int) (fallback open32 : Word) : Option (List Char) → Option Word
  | none => some fallback
  | some cs =>
    match readField cs with
    | .malformed => some fallback
    | .outside => none
    | .value z =>
      if z < -(2 ^ 31) ∨ greatest < z then none
      else if z < least then some open32
      else some (BitVec.ofInt 32 z)

/-- A request record (R81). -/
structure Request where
  pin    : Word
  code   : Word
  period : Word
  rep    : Word
  deriving DecidableEq, Repr

/-- `PARSE` (R195): the four fields of a line, or none where the spec leaves the line out (U15); `n` counts the free
values. -/
def parseFields (fields : List (List Char)) (n : Nat) : Option Request :=
  if 4 < fields.length then none
  else
    match fieldWord 0 (2 ^ 32 - 1) Config.fallbackPin (Config.parsedPin n) fields[0]?,
        fieldWord 0 (2 ^ 32 - 1) Config.fallbackCode (Config.parsedCode n) fields[1]?,
        fieldWord 0 (2 ^ 32 - 1) Config.fallbackPeriod (Config.parsedPeriod n) fields[2]?,
        fieldWord (-(2 ^ 31)) (2 ^ 31 - 1) Config.fallbackRepeat Config.fallbackRepeat fields[3]? with
    | some p, some c, some u, some e => some ⟨p, c, u, e⟩
    | _, _, _, _ => none

/-- An integer below zero. -/
def FieldValue.isNegative : FieldValue → Bool
  | .value z => decide (z < 0)
  | .malformed => false
  | .outside => false

/-- Does one of the three unsigned fields hold a negative integer, so that a free value is taken (log 33)? -/
def takesFreeValue (fields : List (List Char)) : Bool := (fields.take 3).any fun f => (readField f).isNegative

end Sys2Proof.Machine
end

