-- ==== Sys2Proof/Machine/Ops.lean ====
section
/-! DEFINITION. The shared operations: the line and the trace, the register file, holds at both levels, taking the
block's one error, and the parts of a request. -/

namespace Sys2Proof.Machine

/-- The outcome of an operation. -/
abbrev Out := Host.Outcome State Fault Refusal

/-! ## Lines -/

/-- The level of a line; none for a line no `Set` has named (R43, U5). -/
def linesRead (x : Nat) : List (Nat × Level) → Option Level
  | [] => none
  | c :: r => if c.1 = x then some c.2 else linesRead x r

/-- Give a line a level, keeping the list sorted (R60). -/
def linesWrite (x : Nat) (v : Level) : List (Nat × Level) → List (Nat × Level)
  | [] => [(x, v)]
  | c :: r => if x < c.1 then (x, v) :: c :: r else if x = c.1 then (x, v) :: r else c :: linesWrite x v r

/-- The canonical form of `LINES`: identifiers strictly rising and of 32 bits. -/
abbrev linesWf (l : List (Nat × Level)) : Prop := l.Pairwise (fun a b => a.1 < b.1) ∧ ∀ c ∈ l, c.1 < 2 ^ 32

/-! ## The outbound capabilities (R60, R62) -/

/-- `set_output(line, level)` (R60): three things at one instant; the event is appended to the trace (R13). -/
def setOutput (line : Word) (level : Level) (s : State) : State :=
  { s with out := level, lines := linesWrite line.toNat level s.lines, trace := s.trace ++ [.set line level] }

/-- `wait_us(n)` (R62): the event, and `n * TICKS_PER_US` ticks pass. -/
def waitUs (n : Nat) (s : State) : State :=
  { s with now := s.now + n * Config.ticksPerUs, trace := s.trace ++ [.wait n] }

/-! ## The register file (R20, R190, R191) -/

/-- A host write of register `n` (R190); numbers above 4 store nothing (R26, R66, R197). -/
def hostWrite (n : BitVec 3) (v : Word) (s : State) : State :=
  match n.getLsbD 2, n.getLsbD 1, n.getLsbD 0 with
  | false, false, false => { s with pin := v }
  | false, false, true => { s with code := v }
  | false, true, false => { s with period := v }
  | false, true, true => { s with repeatExp := v }
  | true, false, false => { s with repLimit := v }
  | true, false, true => s
  | true, true, false => s
  | true, true, true => s

/-- What a host read of register `n` returns (R191, R193): `CTRL` and register 7 read 0. -/
def hostReadValue (n : BitVec 3) (s : State) : Word :=
  match n.getLsbD 2, n.getLsbD 1, n.getLsbD 0 with
  | false, false, false => s.pin
  | false, false, true => s.code
  | false, true, false => s.period
  | false, true, true => s.repeatExp
  | true, false, false => s.repLimit
  | true, false, true => 0#32
  | true, true, false => statusWord s
  | true, true, true => 0#32

/-- A host read: the value goes back to the host, and nothing else changes (R67, R191). -/
def hostRead (n : BitVec 3) (s : State) : State := { s with readData := hostReadValue n s }

/-- The four register writes of a request record (R81). -/
def writeRequest (r : Request) (s : State) : State :=
  { s with pin := r.pin, code := r.code, period := r.period, repeatExp := r.rep }

/-! ## Holds (R171 to R175) -/

/-- `HOLD l, m` at the event level (R171): one step. `DLY` is loaded and counted down within it (log 10). -/
def holdEvent (l : Level) (m : BitVec 5) (s : State) : State :=
  { waitUs (duration m s.lPeriod) (setOutput s.lPin l s) with dly := 0#37, held := 0#37 }

/-- The start of `HOLD l, m` at the tick level (R173). -/
def holdStart (l : Level) (m : BitVec 5) (s : State) : State :=
  { setOutput s.lPin l s with
    dly := BitVec.ofNat 37 (duration m s.lPeriod * Config.ticksPerUs), hact := true, held := 0#37 }

/-- An operation of the block whose next state is `t`: not enabled while a hold is in progress. With ticks left only `TICK`
and `RESET` are (R173); once it has run out its end comes first, the signal that lets the sequencer take its next step, and
no time passes before it (R170, R174). The host's reads and writes of registers are enabled throughout (R173). -/
def unlessInHold (s t : State) : Out := if s.hact then .refused .notSelected else .next t

/-- Perform the holds of a micro-program one after another, at the event level (R91, R137 to R139). -/
def runProgram (p : List (Level × BitVec 5)) (s : State) : State :=
  p.foldl (fun s d => holdEvent d.1 d.2 s) s

/-- One tick while a hold is in progress (R173). -/
def tickHold (s : State) : State :=
  { s with dly := s.dly - 1#37, now := s.now + 1, held := s.held + 1#37 }

/-- The wait that has passed in the hold in progress stands in the trace (R174, R243, log 11). -/
def emitHeld (s : State) : State :=
  { s with trace := s.trace ++ [.wait (s.held.toNat / Config.ticksPerUs)] }

/-! ## Force-low, the error, the parts of START -/

/-- `FORCE_LOW` (R131). -/
def forceLow (s : State) : State := setOutput s.lPin false s

/-- `raise MalformedRequest` (R213): the block's one error, taken in one zero-time step. Nothing is saved (R214) and
there is no return from it (R218). -/
def raiseMalformed (s : State) : State :=
  { forceLow s with result := .malformedRequest, st := .idle }

/-- `ENCODE` as an operation (R113): the temporaries run, and `ACC` takes the result. -/
def encodeInto (code : Word) (s : State) : State :=
  { s with tmp := encTemps code s.tmp.t, acc := (encTemps code s.tmp.t).a }

/-- `ACCEPT` (R134). -/
def acceptRequest (s : State) : State :=
  { encodeInto s.code { forceLow s with reps := BitVec.ofNat 8 (expandedCount (repeatExponent s.repeatExp)) } with
    k := 0#7, st := .repeating }

/-- `GATE` and the branch it takes (R133). -/
def gateRequest (s : State) : State :=
  if gateAccepts s.repeatExp s.repLimit then acceptRequest s else raiseMalformed s

/-- `START` samples the request and clears the result (R192). -/
def sampleRequest (s : State) : State :=
  { s with lPin := s.pin, lPeriod := s.period, result := .none }

/-- `START` (R192): no next state while `STATE` is not `Idle` (R250). -/
def startRequest (s : State) : Out :=
  if s.st = .idle then .next (gateRequest (sampleRequest s)) else .refused .startWhileBusy

/-! ## The sequencer's position updates (R136, R142, R147, R148) -/

/-- `NEXT` (R147). -/
def goNext (s : State) : State := { s with k := s.k + 1#7, st := .repeating }

/-- `FINISH` (R148). -/
def finishRequest (s : State) : State := { forceLow s with result := .ok, st := .idle }

/-- The position update after a hold of a symbol (R136, R140, R141). -/
def afterEmit (s : State) : State :=
  if s.h.toNat < 3 then { s with h := s.h + 1#2 }
  else if hi : s.i.val < 11 then { s with i := ⟨s.i.val + 1, by omega⟩, h := 0#2 }
  else { s with st := .syncPulse, h := 0#2 }

/-- The position update after a hold of the sync pulse (R142). -/
def afterSync (s : State) : State :=
  if s.h = 0#2 then { s with h := 1#2 }
  else if s.k.toNat + 1 < s.reps.toNat then goNext s
  else finishRequest s

/-- The trit at the cursor is read (R136, R115). -/
def readTrit (s : State) : State := { s with tmp := { s.tmp with t := tritsel s.build.txOrder s.acc s.i } }

/-- The hold `EMIT` performs, none for the reserved trit (R136, R94). -/
def emitHold (s : State) : Option (Level × BitVec 5) :=
  (tritOf (tritsel s.build.txOrder s.acc s.i)).map fun t => (levelOf s.h, mult t s.h)

/-- The hold `SYNC` performs (R142). -/
def syncHold (s : State) : Level × BitVec 5 := (decide (s.h = 0#2), syncMult s.h)

/-- A hold of a sequencer step: at the event level the whole hold and then the position update (R136, R142), at the
tick level its start, after which the sequencer is blocked (R173). -/
def sequencerHold (l : Level) (m : BitVec 5) (after : State → State) (s : State) : State :=
  match s.build.timing with
  | .event => after (holdEvent l m s)
  | .tick => holdStart l m s

/-- The position update for the hold that has ended, by the state that made it (R174). DESIGN CHOICE (log 29): a
tick-level `HOLD` performed on its own, by no `EMIT` or `SYNC`, moves the position by `STATE` too. -/
def afterHold (s : State) : State :=
  match s.st with
  | .idle => s
  | .repeating => s
  | .emittingSymbol => afterEmit s
  | .syncPulse => afterSync s

/-- The end of a hold at the tick level (R174): `HACT` falls and the position moves, in zero time. -/
def endHold (s : State) : State := afterHold { emitHeld s with hact := false, held := 0#37 }

/-- A tick-level hold has run out, or the sequencer has a zero-time step to take: no tick may pass first (R174). -/
def urgent (s : State) : Bool := if s.hact then decide (s.dly = 0#37) else s.st != .idle

/-! ## Reset (R240, R243) -/

/-- A hold `n` ticks after its start (R243: the reset that cuts it comes then). -/
def partOfHold (hold : Level × BitVec 5) (n : Nat) (s : State) : State :=
  { holdStart hold.1 hold.2 s with
    dly := BitVec.ofNat 37 (duration hold.2 s.lPeriod * Config.ticksPerUs - n), now := s.now + n
    held := BitVec.ofNat 37 n }

/-- A hold in progress is cut: the trace shows the wait that had passed (R243). -/
def cutHold (s : State) : State := if s.hact then emitHeld s else s

/-- A transmission that is cut short leaves its line low (R240, R243). -/
def dropLine (s : State) : State := if s.st = .idle then s else setOutput s.lPin false s

/-- The registers after `RESET` (R240); those R46 marks unspecified take free values (log 8). -/
def resetRegisters (s : State) : State :=
  { s with
    out := false, hact := false, st := .idle, result := .none,
    pin := Config.fallbackPin, code := Config.fallbackCode, period := Config.fallbackPeriod,
    repeatExp := Config.fallbackRepeat, repLimit := Config.repLimitReset,
    k := Config.resetK s.free, i := Config.resetI s.free, h := Config.resetH s.free,
    reps := Config.resetReps s.free, acc := Config.resetAcc s.free,
    lPin := Config.resetLPin s.free, lPeriod := Config.resetLPeriod s.free, dly := Config.resetDly s.free,
    held := 0#37, free := s.free + 1 }

end Sys2Proof.Machine
end

