-- ==== Sys2Proof/Machine/Encoder.lean ====
section
/-! DEFINITION. The Code Encoder's operations (`40_encoder.md`): `MASK`, `ENC.STEP`, `ENCODE`, `TRITSEL`. None touches
the line, the trace or the flags (R119); none is enabled while a hold is in progress (R170, R173). -/

namespace Sys2Proof.Machine

/-- `MASK` (R110); its result is `WORK`, as in the first line of `ENCODE` (R113). -/
def execMask (code : Word) (s : State) : Out :=
  unlessInHold s { s with tmp := { s.tmp with work := maskedCode code } }

/-- `ENC.STEP` (R111) on `WORK` and `A`. -/
def execEncStep (s : State) : Out :=
  let r := encStep s.tmp.work s.tmp.a
  unlessInHold s { s with tmp := { s.tmp with t := r.1, work := r.2.1, a := r.2.2 } }

/-- `ENCODE` (R113). -/
def execEncode (code : Word) (s : State) : Out := unlessInHold s (encodeInto code s)

/-- `TRITSEL` (R115): the trit at the cursor. -/
def execTritsel (s : State) : Out := unlessInHold s (readTrit s)

end Sys2Proof.Machine
end

