-- ==== Sys2Proof/Machine/HostOps.lean ====
section
/-! DEFINITION. The host's operations (`43_host_operations.md`) and the external parser's (R195). -/

namespace Sys2Proof.Machine

/-- `WR.PIN` (R190). -/
def execWrPin (v : Word) (s : State) : Out := .next (hostWrite 0#3 v s)
/-- `WR.CODE` (R190). -/
def execWrCode (v : Word) (s : State) : Out := .next (hostWrite 1#3 v s)
/-- `WR.PERIOD` (R190). -/
def execWrPeriod (v : Word) (s : State) : Out := .next (hostWrite 2#3 v s)
/-- `WR.REPEAT` (R190). -/
def execWrRepeat (v : Word) (s : State) : Out := .next (hostWrite 3#3 v s)
/-- `WR.REP_LIMIT` (R190). -/
def execWrRepLimit (v : Word) (s : State) : Out := .next (hostWrite 4#3 v s)

/-- `START` (R192); `v[31:1]` is ignored. -/
def execStart (_v : Word) (s : State) : Out := startRequest s

/-- `WR.NOP` on `CTRL` (R197). -/
def execWrNopCtrl (v : Word) (s : State) : Out := .next (hostWrite 5#3 v s)
/-- `WR.NOP` on `STATUS` (R197). -/
def execWrNopStatus (v : Word) (s : State) : Out := .next (hostWrite 6#3 v s)
/-- `WR.NOP` on register 7 (R197). -/
def execWrNopUnused (v : Word) (s : State) : Out := .next (hostWrite 7#3 v s)

/-- `RD.PIN` (R191). -/
def execRdPin (_x : Word) (s : State) : Out := .next (hostRead 0#3 s)
/-- `RD.CODE` (R191). -/
def execRdCode (_x : Word) (s : State) : Out := .next (hostRead 1#3 s)
/-- `RD.PERIOD` (R191). -/
def execRdPeriod (_x : Word) (s : State) : Out := .next (hostRead 2#3 s)
/-- `RD.REPEAT` (R191). -/
def execRdRepeat (_x : Word) (s : State) : Out := .next (hostRead 3#3 s)
/-- `RD.REP_LIMIT` (R191). -/
def execRdRepLimit (_x : Word) (s : State) : Out := .next (hostRead 4#3 s)
/-- `RD.ZERO` on `CTRL` (R191). -/
def execRdZeroCtrl (_x : Word) (s : State) : Out := .next (hostRead 5#3 s)
/-- `RDSTATUS` (R193). -/
def execRdStatus (_x : Word) (s : State) : Out := .next (hostRead 6#3 s)
/-- `RD.ZERO` on register 7 (R191). -/
def execRdZeroUnused (_x : Word) (s : State) : Out := .next (hostRead 7#3 s)

/-- `PARSE` (R195): forward the four fields, that is, write the request registers (R81, log 15). A line that takes a free
value (log 33) advances the model's counter of them. -/
def execParse (text : List Char) (s : State) : Out :=
  match parseFields (splitFields text []) s.free with
  | some r => .next (writeRequest r { s with free := s.free + (if takesFreeValue (splitFields text []) then 1 else 0) })
  | none => .refused .parseOutsideSpec

end Sys2Proof.Machine
end

