-- ==== Sys2Proof/Machine/Reset.lean ====
section
/-! DEFINITION. The reset input (`70_reset_and_hazards.md` R240, R243). -/

namespace Sys2Proof.Machine

/-- `RESET` (R240): cut the hold in progress, force the line of a transmission low, put the registers back. -/
def execReset (s : State) : Out := .next (resetRegisters (dropLine (cutHold s)))

end Sys2Proof.Machine
end

