-- ==== Sys2Proof/Machine/Timing.lean ====
section
/-! DEFINITION. The timing controller's operations (`42_timing_controller.md`): `HOLD` and `TICK`. -/

namespace Sys2Proof.Machine

/-- `HOLD l, m`: one step at the event level (R171), the start of the hold at the tick level (R173 `pre: HACT = 0`). -/
def execHold (l : Level) (m : BitVec 5) (s : State) : Out :=
  unlessInHold s (match s.build.timing with
    | .event => holdEvent l m s
    | .tick => holdStart l m s)

/-- `TICK` (R173): counts the hold in progress down; in `Idle` ticks pass with no effect on the block; no tick passes
where the sequencer has an urgent step (R174). -/
def execTick (s : State) : Out :=
  if urgent s then .refused .notSelected
  else if s.hact then .next (tickHold s)
  else .next { s with now := s.now + 1 }

end Sys2Proof.Machine
end

