-- ==== Sys2Proof/Machine/Transmitter.lean ====
section
/-! DEFINITION. The Pulse Transmitter's operations (`41_transmitter.md`). -/

namespace Sys2Proof.Machine

/-- `FORCE_LOW` (R131). -/
def execForceLow (s : State) : Out := unlessInHold s (forceLow s)

/-- `GATE` (R133): `accept` is `ACCEPT`, `reject` is `raise MalformedRequest`. -/
def execGate (s : State) : Out := unlessInHold s (gateRequest s)

/-- `ACCEPT` (R134); selected by a passed `GATE` (R97). -/
def execAccept (s : State) : Out :=
  if gateAccepts s.repeatExp s.repLimit then unlessInHold s (acceptRequest s) else .refused .notSelected

/-- `REPEATING` (R135). -/
def execRepeating (s : State) : Out :=
  if s.st = .repeating ∧ s.hact = false then .next { s with i := 0, h := 0#2, st := .emittingSymbol }
  else .refused .notSelected

/-- `EMIT` (R136); the reserved trit has no hold (R94, U4). -/
def execEmit (s : State) : Out :=
  if s.st = .emittingSymbol ∧ s.hact = false then
    match emitHold s with
    | some hold => .next (sequencerHold hold.1 hold.2 afterEmit (readTrit s))
    | none => .refused .reservedTrit
  else .refused .notSelected

/-- `SYM0` (R137). -/
def execSym0 (s : State) : Out := unlessInHold s (runProgram (symbolProgram .t0) s)

/-- `SYM1` (R138). -/
def execSym1 (s : State) : Out := unlessInHold s (runProgram (symbolProgram .t1) s)

/-- `SYM2` (R139). -/
def execSym2 (s : State) : Out := unlessInHold s (runProgram (symbolProgram .t2) s)

/-- `SYNC` (R142). -/
def execSync (s : State) : Out :=
  if s.st = .syncPulse ∧ s.hact = false then
    .next (sequencerHold (syncHold s).1 (syncHold s).2 afterSync s)
  else .refused .notSelected

/-- `NEXT` (R147); selected at the end of a sync pulse with `K + 1 < REPS` (R97). DESIGN CHOICE (log 31): performed on
its own, the end of a sync pulse is `STATE = SyncPulse`, `H = 1` and no hold in progress, which holds before the low hold
as well as after it. -/
def execNext (s : State) : Out :=
  if s.st = .syncPulse ∧ s.hact = false ∧ s.h = 1#2 ∧ s.k.toNat + 1 < s.reps.toNat then .next (goNext s)
  else .refused .notSelected

/-- `FINISH` (R148); selected at the end of a sync pulse with `K + 1 = REPS` (R97). DESIGN CHOICE (log 31): performed on
its own, the end of a sync pulse is as for `NEXT`. -/
def execFinish (s : State) : Out :=
  if s.st = .syncPulse ∧ s.hact = false ∧ s.h = 1#2 ∧ s.k.toNat + 1 = s.reps.toNat then .next (finishRequest s)
  else .refused .notSelected

/-- `IDLE` (R155): no change. -/
def execIdle (s : State) : Out := if s.st = .idle then unlessInHold s s else .refused .notSelected

/-- The state after the whole of an accepted request, from the state after its `START` (R151, R157, log 14): the
trace of R151's function without its first `Set`, the time it takes, and the position the last step leaves. -/
def afterTelegrams (trits : List Trit) (s : State) : State :=
  let events := telegramsTrace s.reps.toNat s.lPin trits s.lPeriod
  { finishRequest { s with trace := s.trace ++ events, now := s.now + totalWait events * Config.ticksPerUs } with
    k := BitVec.ofNat 7 (s.reps.toNat - 1), i := 11, h := 1#2,
    tmp := { s.tmp with t := tritsel s.build.txOrder s.acc 11 }, dly := 0#37, held := 0#37 }

/-- `TX` (R151): the request record is loaded (R81) and the whole request performed, as one function, with
the condition of its `START` (log 14) and not while a hold is in progress (R173, R174). -/
def execTx (pin code period rep : Word) (s : State) : Out :=
  match startRequest (writeRequest ⟨pin, code, period, rep⟩ s) with
  | .next a =>
    if s.hact then .refused .notSelected
    else if a.st = .idle then .next a
    else match tritsOf a.build.txOrder a.acc with
      | some trits => .next (afterTelegrams trits a)
      | none => .refused .reservedTrit
  | .fault r => .fault r
  | .refused r => .refused r

end Sys2Proof.Machine
end

