-- ==== Sys2Proof/Machine/Dispatch.lean ====
section
/-! DEFINITION. One arm per operation (R97), each one call of its meaning. -/

namespace Sys2Proof.Machine

def exec (i : Instr) (s : State) : Host.Outcome State Fault Refusal :=
  match i with
  | .wrPin v => Sys2Proof.Machine.execWrPin v s
  | .wrCode v => Sys2Proof.Machine.execWrCode v s
  | .wrPeriod v => Sys2Proof.Machine.execWrPeriod v s
  | .wrRepeat v => Sys2Proof.Machine.execWrRepeat v s
  | .wrRepLimit v => Sys2Proof.Machine.execWrRepLimit v s
  | .start v => Sys2Proof.Machine.execStart v s
  | .wrNopCtrl v => Sys2Proof.Machine.execWrNopCtrl v s
  | .wrNopStatus v => Sys2Proof.Machine.execWrNopStatus v s
  | .wrNopUnused v => Sys2Proof.Machine.execWrNopUnused v s
  | .rdPin x => Sys2Proof.Machine.execRdPin x s
  | .rdCode x => Sys2Proof.Machine.execRdCode x s
  | .rdPeriod x => Sys2Proof.Machine.execRdPeriod x s
  | .rdRepeat x => Sys2Proof.Machine.execRdRepeat x s
  | .rdRepLimit x => Sys2Proof.Machine.execRdRepLimit x s
  | .rdZeroCtrl x => Sys2Proof.Machine.execRdZeroCtrl x s
  | .rdStatus x => Sys2Proof.Machine.execRdStatus x s
  | .rdZeroUnused x => Sys2Proof.Machine.execRdZeroUnused x s
  | .sym0 => Sys2Proof.Machine.execSym0 s
  | .sym1 => Sys2Proof.Machine.execSym1 s
  | .sym2 => Sys2Proof.Machine.execSym2 s
  | .idle => Sys2Proof.Machine.execIdle s
  | .repeating => Sys2Proof.Machine.execRepeating s
  | .emit => Sys2Proof.Machine.execEmit s
  | .sync => Sys2Proof.Machine.execSync s
  | .hold l m => Sys2Proof.Machine.execHold l m s
  | .tx pin code period rep => Sys2Proof.Machine.execTx pin code period rep s
  | .mask code => Sys2Proof.Machine.execMask code s
  | .encode code => Sys2Proof.Machine.execEncode code s
  | .parse text => Sys2Proof.Machine.execParse text s
  | .encStep => Sys2Proof.Machine.execEncStep s
  | .tritsel => Sys2Proof.Machine.execTritsel s
  | .forceLow => Sys2Proof.Machine.execForceLow s
  | .gate => Sys2Proof.Machine.execGate s
  | .accept => Sys2Proof.Machine.execAccept s
  | .nextTelegram => Sys2Proof.Machine.execNext s
  | .finish => Sys2Proof.Machine.execFinish s
  | .tick => Sys2Proof.Machine.execTick s
  | .reset => Sys2Proof.Machine.execReset s

end Sys2Proof.Machine
end

