-- ==== Sys2Proof/WellFormed.lean ====
section
/-! DEFINITION. Which terms of `Instr` are operations of the block: the side conditions of R93 on the `START` bit, and
"one line of text" of R195. Every other operand is held by its type. -/

namespace Sys2Proof

/-- The characters that end a line: none stands in one line of text (R195, log 28). -/
def isLineEnd (c : Char) : Bool := c == '\n' || c == '\r'

/-- The well-formed operations (R93: `START` is the `CTRL` write with `v[0] = 1`, `WR.NOP` the one with `v[0] = 0`). -/
def Instr.WellFormed : Instr → Bool
  | .start v => v.getLsbD 0
  | .wrNopCtrl v => !v.getLsbD 0
  | .parse text => text.all fun c => !isLineEnd c
  | .wrPin _ | .wrCode _ | .wrPeriod _ | .wrRepeat _ | .wrRepLimit _ => true
  | .wrNopStatus _ | .wrNopUnused _ => true
  | .rdPin _ | .rdCode _ | .rdPeriod _ | .rdRepeat _ | .rdRepLimit _ => true
  | .rdZeroCtrl _ | .rdStatus _ | .rdZeroUnused _ => true
  | .sym0 | .sym1 | .sym2 => true
  | .idle | .repeating | .emit | .sync => true
  | .hold _ _ => true
  | .tx _ _ _ _ => true
  | .mask _ | .encode _ => true
  | .encStep | .tritsel | .forceLow | .gate | .accept | .nextTelegram | .finish | .tick | .reset => true

end Sys2Proof
end

