-- ==== Sys2Proof/Decode.lean ====
section
/-! DEFINITION. The decoder, total on every encoded form and refusing by name (`30_encoding.md` R87, R90, R92, R93,
R81, R83), and after it the encoder, written from the same tables. -/

namespace Sys2Proof

/-- Why an encoded form is no operation. -/
inductive DecodeError where
  /-- `TRIT` code `0b11`: reserved (R87, R94). -/
  | reservedTrit
  /-- A `LINE` with a line end in it: not one line of text (R195, D16). -/
  | lineEnd
  deriving DecidableEq, Repr

/-- Format `HOST` (R93): bit 35 `W`, bits 34:32 `n`, bits 31:0 `v`; the arms read as the table's encoding column. -/
def decodeHost (w : BitVec 36) : Instr :=
  let v : Word := w.extractLsb' 0 32
  match w.getLsbD 35, w.getLsbD 34, w.getLsbD 33, w.getLsbD 32 with
  | true, false, false, false => .wrPin v
  | true, false, false, true => .wrCode v
  | true, false, true, false => .wrPeriod v
  | true, false, true, true => .wrRepeat v
  | true, true, false, false => .wrRepLimit v
  | true, true, false, true => if v.getLsbD 0 then .start v else .wrNopCtrl v
  | true, true, true, false => .wrNopStatus v
  | true, true, true, true => .wrNopUnused v
  | false, false, false, false => .rdPin v
  | false, false, false, true => .rdCode v
  | false, false, true, false => .rdPeriod v
  | false, false, true, true => .rdRepeat v
  | false, true, false, false => .rdRepLimit v
  | false, true, false, true => .rdZeroCtrl v
  | false, true, true, false => .rdStatus v
  | false, true, true, true => .rdZeroUnused v

/-- Format `REQ` (R81): `pin` in bits 127:96, `code` 95:64, `period` 63:32, `repeat` 31:0. -/
def decodeReq (w : BitVec 128) : Instr :=
  .tx (w.extractLsb' 96 32) (w.extractLsb' 64 32) (w.extractLsb' 32 32) (w.extractLsb' 0 32)

/-- Format `TRIT` (R87). -/
def decodeTrit (w : BitVec 2) : Except DecodeError Instr :=
  match w.getLsbD 1, w.getLsbD 0 with
  | false, false => .ok .sym0
  | false, true => .ok .sym1
  | true, false => .ok .sym2
  | true, true => .error .reservedTrit

/-- Format `SEQ` (R92): every code selects a step. -/
def decodeSeq (w : BitVec 2) : Instr :=
  match w.getLsbD 1, w.getLsbD 0 with
  | false, false => .idle
  | false, true => .repeating
  | true, false => .emit
  | true, true => .sync

/-- Format `HOLD` (R90): bit 5 the level, bits 4:0 the multiplier. -/
def decodeHold (w : BitVec 6) : Instr := .hold (w.getLsbD 5) (w.extractLsb' 0 5)

/-- The operations without bits (R97). -/
def decodeEvent : Event → Instr
  | .encStep => .encStep
  | .tritsel => .tritsel
  | .forceLow => .forceLow
  | .gate => .gate
  | .accept => .accept
  | .nextTelegram => .nextTelegram
  | .finish => .finish
  | .tick => .tick
  | .reset => .reset

/-- The decoder. -/
def decode : OpWord → Except DecodeError Instr
  | .host w => .ok (decodeHost w)
  | .req w => .ok (decodeReq w)
  | .maskCode w => .ok (.mask w)
  | .encodeCode w => .ok (.encode w)
  | .trit w => decodeTrit w
  | .hold w => .ok (decodeHold w)
  | .seq w => .ok (decodeSeq w)
  | .line text => if text.all (fun c => !isLineEnd c) then .ok (.parse text) else .error .lineEnd
  | .event e => .ok (decodeEvent e)

/-- A `HOST` word from its top four bits `{W, n}` and `v` (R93: `W << 35 | n << 32 | v`). -/
def hostWord (wn : BitVec 4) (v : Word) : OpWord := .host (wn ++ v)

/-- The encoder. -/
def encode : Instr → OpWord
  | .wrPin v => hostWord 0b1000#4 v
  | .wrCode v => hostWord 0b1001#4 v
  | .wrPeriod v => hostWord 0b1010#4 v
  | .wrRepeat v => hostWord 0b1011#4 v
  | .wrRepLimit v => hostWord 0b1100#4 v
  | .start v => hostWord 0b1101#4 v
  | .wrNopCtrl v => hostWord 0b1101#4 v
  | .wrNopStatus v => hostWord 0b1110#4 v
  | .wrNopUnused v => hostWord 0b1111#4 v
  | .rdPin x => hostWord 0b0000#4 x
  | .rdCode x => hostWord 0b0001#4 x
  | .rdPeriod x => hostWord 0b0010#4 x
  | .rdRepeat x => hostWord 0b0011#4 x
  | .rdRepLimit x => hostWord 0b0100#4 x
  | .rdZeroCtrl x => hostWord 0b0101#4 x
  | .rdStatus x => hostWord 0b0110#4 x
  | .rdZeroUnused x => hostWord 0b0111#4 x
  | .sym0 => .trit 0b00#2
  | .sym1 => .trit 0b01#2
  | .sym2 => .trit 0b10#2
  | .idle => .seq 0b00#2
  | .repeating => .seq 0b01#2
  | .emit => .seq 0b10#2
  | .sync => .seq 0b11#2
  | .hold l m => .hold (BitVec.ofBool l ++ m)
  | .tx pin code period rep => .req (pin ++ code ++ period ++ rep)
  | .mask code => .maskCode code
  | .encode code => .encodeCode code
  | .parse text => .line text
  | .encStep => .event .encStep
  | .tritsel => .event .tritsel
  | .forceLow => .event .forceLow
  | .gate => .event .gate
  | .accept => .event .accept
  | .nextTelegram => .event .nextTelegram
  | .finish => .event .finish
  | .tick => .event .tick
  | .reset => .event .reset

/-- The operations the table gives no bits, in the table's order (log 17). -/
def opsWithoutBits : List OpWord :=
  [.line [], .event .encStep, .event .tritsel, .event .forceLow, .event .gate, .event .accept,
   .event .nextTelegram, .event .finish, .event .tick, .event .reset]

/-- The encoded form meant by the number `w` of `nbits` bits (DESIGN CHOICE, log 17: the spec's formats overlap in
width, and a width with more than one format is read by the rule given there). -/
def tableWord (nbits w : Nat) : Option OpWord :=
  match nbits with
  | 128 => if w < 2 ^ 128 then some (.req (BitVec.ofNat 128 w)) else none
  | 40 => if w < 2 ^ 36 then some (.host (BitVec.ofNat 36 w)) else none
  | 36 => if w < 2 ^ 36 then some (.host (BitVec.ofNat 36 w)) else none
  | 32 => if w < 2 ^ 32 then some (.encodeCode (BitVec.ofNat 32 w)) else none
  | 8 =>
    if w < 4 then some (.seq (BitVec.ofNat 2 w))
    else if w < 64 then some (.hold (BitVec.ofNat 6 w))
    else if w < 68 then some (.trit (BitVec.ofNat 2 w))
    else if 128 ≤ w ∧ w < 192 then some (.hold (BitVec.ofNat 6 w))
    else none
  | 6 => if w < 64 then some (.hold (BitVec.ofNat 6 w)) else none
  | 2 => if w < 4 then some (.seq (BitVec.ofNat 2 w)) else none
  | 0 => opsWithoutBits[w]?
  | _ => none

/-- The operation the decoder reads from the number `w` of `nbits` bits. -/
def decodeTableWord (nbits w : Nat) : Option Instr :=
  match tableWord nbits w with
  | none => none
  | some o =>
    match decode o with
    | .ok i => some i
    | .error _ => none

end Sys2Proof
end

