-- ==== Sys2Proof/Machine/Fetch.lean ====
section
/-! DEFINITION. Which operation comes next: the head of the agenda, or the sequencer's turn (R9, R92, R174, R217); and
where an operation is put so that it comes next. -/

namespace Sys2Proof.Machine

/-- What happens next: an operation, the end of a hold, or the refusal of an encoded form. -/
inductive Fetched where
  | run (i : Instr) (s : State)
  | holdEnds (s : State)
  | refuse (r : Refusal)
  deriving DecidableEq, Repr

/-- The refusal for each reason the decoder gives (U4, U15). -/
def decodeRefusal : DecodeError → Refusal
  | .reservedTrit => .reservedTrit
  | .lineEnd => .parseOutsideSpec

/-- Decode an encoded form for a state. -/
def fetchWord (w : OpWord) (s : State) : Fetched :=
  match decode w with
  | .ok i => .run i s
  | .error e => .refuse (decodeRefusal e)

/-- The sequencer's turn: blocked in a hold, a tick passes or the hold ends (R173, R174); otherwise the step its
`STATE` code selects (R92). DESIGN CHOICE (log 30): R173 has ticks caused by the time base; here the sequencer's turn in
a hold stands for the time base's next tick, so that a hold runs out with nothing pending. -/
def sequencerTurn (s : State) : Fetched :=
  if s.hact then
    if s.dly = 0#37 then .holdEnds s else .run .tick s
  else fetchWord (.seq s.st.bits) s

/-- The hold the sequencer's step performs (R136, R142). -/
def currentHold (s : State) : Option (Level × BitVec 5) :=
  match s.st with
  | .idle => none
  | .repeating => none
  | .emittingSymbol => emitHold s
  | .syncPulse => some (syncHold s)

/-- The state in which a sequencer step starts its hold: `EMIT` has read its trit (R136). -/
def holdSource (s : State) : State := if s.st = .emittingSymbol then readTrit s else s

/-- The reset input is asserted `n` ticks from now (R243, log 32). At once it wins over all else (R217). In `Idle` the
ticks pass with no effect (R173). At the event level, a hold it falls into, or whose end it meets (R217), is cut there;
a shorter one is performed whole. At the tick level the sequencer and the time base go on until the ticks have passed. -/
def resetAfterTurn (n : Nat) (rest : List Turn) (s : State) : Fetched :=
  if n = 0 then .run .reset { s with agenda := rest }
  else if s.hact then
    if s.dly = 0#37 then sequencerTurn s else sequencerTurn { s with agenda := .resetAfter (n - 1) :: rest }
  else if s.st = .idle then .run .reset { s with now := s.now + n, agenda := rest }
  else
    match s.build.timing, currentHold s with
    | .event, some hold =>
      if n ≤ duration hold.2 s.lPeriod * Config.ticksPerUs then
        .run .reset (partOfHold hold n (holdSource { s with agenda := rest }))
      else sequencerTurn { s with agenda := .resetAfter (n - duration hold.2 s.lPeriod * Config.ticksPerUs) :: rest }
    | .event, none => sequencerTurn s
    | .tick, _ => sequencerTurn s

/-- What happens next. With nothing pending the sequencer has the turn. A tick of the time base waits until the
sequencer's urgent steps have been taken (R174). -/
def fetch (s : State) : Fetched :=
  match s.agenda with
  | [] => sequencerTurn s
  | .sequencer :: rest => sequencerTurn { s with agenda := rest }
  | .resetWins _ :: rest => .run .reset { s with agenda := rest }
  | .resetAfter n :: rest => resetAfterTurn n rest s
  | .input (.event .tick) :: rest =>
    if urgent s then sequencerTurn s else .run .tick { s with agenda := rest }
  | .input w :: rest => fetchWord w { s with agenda := rest }

/-- The host operations the shorthand `REQUEST pin, code, period, repeat` stands for (R96). -/
def requestTurns (r : Request) : List Turn :=
  [.input (hostWord 0b1000#4 r.pin), .input (hostWord 0b1001#4 r.code), .input (hostWord 0b1010#4 r.period),
   .input (hostWord 0b1011#4 r.rep), .input (hostWord 0b1101#4 1#32)]

/-- Put an encoded form where the next step takes it, with the selecting condition that the form needs (R92, R97):
a `SEQ` code is put into `STATE`; everything else is put at the head of the agenda. -/
def placeWord (w : OpWord) (s : State) : State :=
  match w with
  | .seq c => { s with st := seqStateOf c, hact := false, agenda := .sequencer :: s.agenda }
  | .event .tick => { s with hact := true, dly := 1#37, agenda := .input w :: s.agenda }
  | .event .accept => { s with repeatExp := 0#32, repLimit := Config.repLimitReset, agenda := .input w :: s.agenda }
  | .event .nextTelegram =>
    { s with st := .syncPulse, hact := false, h := 1#2, k := 0#7, reps := 2#8, agenda := .input w :: s.agenda }
  | .event .finish =>
    { s with st := .syncPulse, hact := false, h := 1#2, k := 0#7, reps := 1#8, agenda := .input w :: s.agenda }
  | _ => { s with agenda := .input w :: s.agenda }

end Sys2Proof.Machine
end

