-- ==== Sys2Proof/Machine/Step.lean ====
section
/-! DEFINITION. One step of the machine. -/

namespace Sys2Proof.Machine

/-- One step: what `fetch` names next, performed. -/
def step (s : State) : Host.Outcome State Fault Refusal :=
  match fetch s with
  | .run i s' => exec i s'
  | .holdEnds s' => .next (endHold s')
  | .refuse r => .refused r

/-- `s` with the operation of the number `w` of `nbits` bits put where the next step takes it (log 18). -/
def State.withFetchWord (s : State) (nbits w : Nat) : State :=
  match tableWord nbits w with
  | some o => placeWord o s
  | none => s

end Sys2Proof.Machine
end

