-- ==== Sys2Proof/Safety.lean ====
section
/-! DEFINITION. What claims about a run speak of: several steps, what the outside world may put on the agenda, the
level of a line as the trace gives it, and the invariant of the machine. -/

namespace Sys2Proof.Machine

/-- `n` steps, stopping at the first that has no next state. -/
def runSteps : Nat → State → Out
  | 0, s => .next s
  | n + 1, s =>
    match step s with
    | .next t => runSteps n t
    | .fault r => .fault r
    | .refused r => .refused r

/-- The forms the outside world gives the block (R9, R93, R81, R173, R195, R240); the others are parts of its own
operations (R97). -/
def fromOutside : OpWord → Bool
  | .host _ | .req _ | .line _ => true
  | .event .tick | .event .reset => true
  | .event .encStep | .event .tritsel | .event .forceLow | .event .gate => false
  | .event .accept | .event .nextTelegram | .event .finish => false
  | .maskCode _ | .encodeCode _ | .trit _ | .hold _ | .seq _ => false

/-- A turn that only the sequencer or the outside world takes. -/
def turnFromOutside : Turn → Bool
  | .sequencer => true
  | .resetWins _ => true
  | .resetAfter _ => true
  | .input w => fromOutside w

/-- The level of the latest `Set` in a trace that names line `x` (R10); none before the first (U5). -/
def lastSet (x : Nat) : List TraceEvent → Option Level
  | [] => none
  | .set line level :: r =>
    match lastSet x r with
    | some l => some l
    | none => if line.toNat = x then some level else none
  | .wait _ :: r => lastSet x r

/-- The levels of the `Set` events of a trace, in order (R10). -/
def setLevels : List TraceEvent → List Level
  | [] => []
  | .set _ level :: r => level :: setLevels r
  | .wait _ :: r => setLevels r

/-- The pulse-shape table as R88 prints it: rows are trits 0, 1, 2, columns are holds 0 to 3. -/
def pulseTable : List (List Nat) := [[1, 3, 1, 3], [3, 1, 3, 1], [1, 3, 3, 1]]

/-- An entry of the pulse-shape table. -/
def tableMult (trit hold : Nat) : Nat := (pulseTable.getD trit []).getD hold 0

/-- The value of the pair sent at cursor `i` (R86): `LSPAIR_FIRST` takes the pairs from the low end. -/
def sentTrit (order : TxOrder) (acc : BitVec 24) (i : Nat) : Nat :=
  match order with
  | .lspairFirst => acc.toNat / 4 ^ i % 4
  | .mspairFirst => acc.toNat / 4 ^ (11 - i) % 4

/-- The `n`-th base-3 digit of a code's low twenty bits, `d_n` of R114. -/
def codeDigit (code : Word) (n : Nat) : Nat := code.toNat % 2 ^ 20 / 3 ^ n % 3

/-- The gate's condition on the numbers (R133): the exponent is 0 to 7 and `2^e` does not exceed the limit. -/
def GatePasses (rep limit : Word) : Prop :=
  0 ≤ rep.toInt ∧ rep.toInt ≤ 7 ∧ 2 ^ rep.toInt.toNat ≤ limit.toNat

/-- No pair of the accumulator is the reserved `0b11` (R118). -/
def AccHoldsTrits (acc : BitVec 24) : Prop := ∀ i, i < 12 → acc.toNat / 4 ^ i % 4 ≠ 3

/-- The duration of the hold at the sequencer's position, in ticks (R136, R142, R172). -/
def currentHoldTicks (s : State) : Nat :=
  let p := s.lPeriod.toNat * Config.ticksPerUs
  match s.st with
  | .idle => 0
  | .repeating => 0
  | .emittingSymbol => tableMult (sentTrit s.build.txOrder s.acc s.i.val) s.h.toNat * p
  | .syncPulse => (if s.h = 0#2 then 1 else 31) * p

/-- `text` is the fields in their order, with any spaces and tabs before, after, and at least one between two
(R83, R195; which characters are white space is log 15). -/
def IsLineOf (text : List Char) (fields : List (List Char)) : Prop :=
  ∃ (lead : List Char) (parts : List (List Char × List Char)),
    parts.map Prod.fst = fields ∧ text = lead ++ parts.flatMap (fun p => p.1 ++ p.2) ∧
    (∀ c ∈ lead, c = ' ' ∨ c = '\t') ∧
    (∀ p ∈ parts, p.1 ≠ [] ∧ (∀ c ∈ p.1, c ≠ ' ' ∧ c ≠ '\t') ∧ ∀ c ∈ p.2, c = ' ' ∨ c = '\t') ∧
    ∀ p ∈ parts.dropLast, p.2 ≠ []

/-- The characters of decimal digits. -/
def digitChars (ds : List Nat) : List Char := ds.map fun d => Char.ofNat (48 + d)

/-- The form the model takes for hexadecimal: an optional `-`, `0x` or `0X`, and at least one digit (log 15). -/
def IsHexField (cs : List Char) : Prop :=
  ∃ (sign : List Char) (x : Char) (ds : List Char), cs = sign ++ '0' :: x :: ds ∧ (sign = [] ∨ sign = ['-']) ∧
    (x = 'x' ∨ x = 'X') ∧ ds ≠ [] ∧
    ∀ d ∈ ds, d.isDigit = true ∨ ('a' ≤ d ∧ d ≤ 'f') ∨ ('A' ≤ d ∧ d ≤ 'F')

/-- The invariant of the machine. -/
structure Inv (s : State) : Prop where
  /-- `LINES` is in canonical form. -/
  lines_wf : linesWf s.lines
  /-- Only the outside world's forms are pending. -/
  agenda_outside : s.agenda.all turnFromOutside = true
  /-- Idle-safety (R150); no hold is in progress in `Idle`. -/
  idle_low : s.st = .idle → s.out = false ∧ s.hact = false
  /-- A result is shown only in `Idle` (R193), and the request's line is low (R149, R150). -/
  result_idle : s.result ≠ .none → s.st = .idle ∧ linesRead s.lPin.toNat s.lines = some false
  /-- During a request `REPS` is `2^e` (R35), `K` has not reached it (R30), `ACC` holds trits (R118), and the line has
  the level `OUT` (R60). -/
  busy_latched : s.st ≠ .idle →
    (∃ e, e ≤ 7 ∧ s.reps.toNat = 2 ^ e) ∧ s.k.toNat < s.reps.toNat ∧ AccHoldsTrits s.acc ∧
      linesRead s.lPin.toNat s.lines = some s.out
  /-- The sync pulse has two holds (R142). -/
  sync_holds : s.st = .syncPulse → s.h.toNat < 2
  /-- Between telegrams the line is low (R147). -/
  between_low : s.st = .repeating → s.out = false ∧ s.hact = false
  /-- Between holds the line has the level of the hold before (R140). -/
  parked_level : s.st = .emittingSymbol ∨ s.st = .syncPulse → s.hact = false → s.out = decide (s.h.toNat % 2 = 1)
  /-- In a hold the line has the hold's level, and what has passed and what is left make its duration (R41, R173). -/
  hold_level : s.hact = true →
    (s.st = .emittingSymbol ∨ s.st = .syncPulse) ∧ s.build.timing = .tick ∧ s.out = decide (s.h.toNat % 2 = 0) ∧
      s.dly.toNat + s.held.toNat = currentHoldTicks s

end Sys2Proof.Machine
end

