-- ==== Sys2Proof/Certificates/Slice0/Obligations.lean ====
section
/-! DEFINITION. The statements about the model, each a formal reading of the rules of `spec/` its docstring names. -/

open Sys2Proof Sys2Proof.Machine

/-! ## Reset, the register file and the host (R20 to R28, R190 to R197, R240) -/

/-- R46, R27: what the state after reset holds where the spec gives a value. -/
def Obligations.ResetStateHoldsSpecifiedValues : Prop :=
  State.reset.st = .idle ∧ State.reset.out = false ∧ State.reset.result = .none ∧ State.reset.hact = false ∧
  State.reset.pin = 9#32 ∧ State.reset.code = 0xFF#32 ∧ State.reset.period = 320#32 ∧
  State.reset.repeatExp = 3#32 ∧ State.reset.repLimit = 100#32 ∧ statusWord State.reset = 0#32

/-- The machine's invariant holds at reset. -/
def Obligations.ResetStateMeetsInvariant : Prop := Inv State.reset

/-- R190, R197, R26: a write changes only its register, and the writes that store nothing change nothing. -/
def Obligations.HostWriteStoresOneRegister : Prop :=
  ∀ (v : Word) (s : State),
    exec (.wrPin v) s = .next { s with pin := v } ∧
    exec (.wrCode v) s = .next { s with code := v } ∧
    exec (.wrPeriod v) s = .next { s with period := v } ∧
    exec (.wrRepeat v) s = .next { s with repeatExp := v } ∧
    exec (.wrRepLimit v) s = .next { s with repLimit := v } ∧
    exec (.wrNopCtrl v) s = .next s ∧ exec (.wrNopStatus v) s = .next s ∧ exec (.wrNopUnused v) s = .next s

/-- R191: a read returns its register, `CTRL` and register 7 read 0, and nothing else changes. -/
def Obligations.HostReadReturnsRegister : Prop :=
  ∀ (x : Word) (s : State),
    exec (.rdPin x) s = .next { s with readData := s.pin } ∧
    exec (.rdCode x) s = .next { s with readData := s.code } ∧
    exec (.rdPeriod x) s = .next { s with readData := s.period } ∧
    exec (.rdRepeat x) s = .next { s with readData := s.repeatExp } ∧
    exec (.rdRepLimit x) s = .next { s with readData := s.repLimit } ∧
    exec (.rdZeroCtrl x) s = .next { s with readData := 0#32 } ∧
    exec (.rdZeroUnused x) s = .next { s with readData := 0#32 }

/-- R193, R27, R28: `RDSTATUS` returns `BUSY` in bit 0, the code of `RESULT` in bits 2:1, zeros above; reading changes
nothing else; and of the machine's reachable states it reads 0, 1, 2 or 4. -/
def Obligations.ReadStatusReturnsBusyAndResult : Prop :=
  ∀ (x : Word) (s : State), ∃ w : Word,
    exec (.rdStatus x) s = .next { s with readData := w } ∧
    w.toNat = (match s.result with | .none => 0 | .ok => 2 | .malformedRequest => 4) +
      (if s.st = .idle then 0 else 1) ∧
    (Inv s → w.toNat = 0 ∨ w.toNat = 1 ∨ w.toNat = 2 ∨ w.toNat = 4)

/-- R20, R66, R190, R191 through the words of R93: a write of register `n` (0 to 4) followed by a read of register `m`
returns the value written if `m = n`, and otherwise what a read before the write would have returned. -/
def Obligations.WrittenWordReadsBack : Prop :=
  ∀ (s : State) (n m : BitVec 3) (v x : Word) (rest : List Turn), n.toNat ≤ 4 →
    ∃ a b c,
      step { s with agenda := .input (.host (1#1 ++ n ++ v)) :: .input (.host (0#1 ++ m ++ x)) :: rest } = .next a ∧
      step a = .next b ∧
      step { s with agenda := .input (.host (0#1 ++ m ++ x)) :: rest } = .next c ∧
      b.readData = (if m = n then v else c.readData) ∧ b.agenda = rest

/-- R240, R243, R46: `RESET` cuts a hold in progress (its `Wait` is what had passed), forces the line of a transmission
low, and gives every register its reset value; the registers R46 marks unspecified hold some value (U6). Whatever
other input comes at the same instant does not happen. A reset `us` microseconds into a hold of the event level leaves
`Wait(us)` in the trace. (How an input stands on the agenda is the model's form, logs 24 and 32.) -/
def Obligations.ResetInputRestoresRegisters : Prop :=
  (∀ (s : State) (w : OpWord) (rest : List Turn),
    step { s with agenda := .resetWins w :: rest } = exec .reset { s with agenda := rest }) ∧
  (∀ (s : State) (us : Nat) (rest : List Turn), s.build.timing = .event → s.hact = false →
    (s.st = .emittingSymbol ∧ sentTrit s.build.txOrder s.acc s.i.val ≠ 3) ∨ s.st = .syncPulse →
    0 < us → us * Config.ticksPerUs ≤ currentHoldTicks s →
    ∃ t, step { s with agenda := .resetAfter (us * Config.ticksPerUs) :: rest } = .next t ∧
      t.trace = s.trace ++
        [.set s.lPin (if s.st = .syncPulse then decide (s.h = 0#2) else decide (s.h.toNat % 2 = 0)), .wait us,
          .set s.lPin false] ∧
      t.now = s.now + us * Config.ticksPerUs ∧ t.st = .idle ∧ t.result = .none ∧ t.out = false ∧ t.hact = false ∧
      t.pin = 9#32 ∧ t.code = 0xFF#32 ∧ t.period = 320#32 ∧ t.repeatExp = 3#32 ∧ t.repLimit = 100#32 ∧
      t.agenda = rest ∧
      ∀ x, linesRead x t.lines = if x = s.lPin.toNat then some false else linesRead x s.lines) ∧
  ∀ s : State, ∃ (k : BitVec 7) (i : Fin 12) (h : BitVec 2) (reps : BitVec 8) (acc : BitVec 24)
    (lPin lPeriod : Word) (dly : BitVec 37) (held : BitVec 37) (free : Nat),
    exec .reset s = .next { s with
      out := false, hact := false, st := .idle, result := .none
      pin := 9#32, code := 0xFF#32, period := 320#32, repeatExp := 3#32, repLimit := 100#32
      k := k, i := i, h := h, reps := reps, acc := acc, lPin := lPin, lPeriod := lPeriod, dly := dly
      held := held, free := free
      lines := (if s.st = .idle then s.lines else linesWrite s.lPin.toNat false s.lines)
      trace := s.trace ++ (if s.hact then [TraceEvent.wait s.held.toNat] else []) ++
        (if s.st = .idle then [] else [TraceEvent.set s.lPin false]) }

/-- R195, R83: of a line of at most four fields, with any spaces and tabs around and between them, each field that reads as
a decimal integer within its register takes its value, each malformed or missing field its own fallback, and the four are
forwarded. A negative integer in one of the three unsigned fields is forwarded too; which word it gives is left open (the
spec states none, log 33), and the other fields and registers are as without it. That white space is space and tab and that
forwarding is four register writes without a `START` is the model's reading (log 15); a line holds no line end (log 28). -/
def Obligations.ParseForwardsFieldsOrFallbacks : Prop :=
  ∀ (s : State) (text : List Char) (fields : List (List Char)),
    (Instr.parse text).WellFormed = true → IsLineOf text fields → fields.length ≤ 4 →
    (∀ j f, fields[j]? = some f → readField f ≠ .outside ∧
      ∀ z, readField f = .value z → -(2 ^ 31) ≤ z ∧ z < (if j < 3 then 2 ^ 32 else 2 ^ 31)) →
    ∃ (value : Nat → Word) (free : Nat),
      exec (.parse text) s =
        .next { s with pin := value 0, code := value 1, period := value 2, repeatExp := value 3, free := free } ∧
      (∀ j, j < 4 → (fields[j]? = none ∨ ∃ f, fields[j]? = some f ∧ readField f = .malformed) →
        value j = ([9#32, 0xFF#32, 320#32, 3#32]).getD j 0) ∧
      (∀ j f z, j < 4 → fields[j]? = some f → readField f = .value z → (j < 3 → 0 ≤ z) → value j = BitVec.ofInt 32 z) ∧
      ((∀ j f z, j < 3 → fields[j]? = some f → readField f = .value z → 0 ≤ z) → free = s.free)

/-- R195, D16: what a text field reads as: digits give their decimal value, a leading `-` negates it, a hexadecimal field is
left out, and every other field does not parse (`-`, `--5`, `5-3`, `x`, `4x` among them). Which fields count as
hexadecimal is the model's choice (`IsHexField`, log 15). -/
def Obligations.TextFieldIsSignedDecimal : Prop :=
  (∀ ds : List Nat, ds ≠ [] → (∀ d ∈ ds, d < 10) →
    readField (digitChars ds) = .value (ds.foldl (fun a d => 10 * a + d) 0 : Nat) ∧
    readField ('-' :: digitChars ds) = .value (-(ds.foldl (fun a d => 10 * a + d) 0 : Nat))) ∧
  (∀ cs : List Char, IsHexField cs → readField cs = .outside) ∧
  (∀ cs : List Char, ¬ IsHexField cs →
    (∀ ds : List Nat, ds ≠ [] → (∀ d ∈ ds, d < 10) → cs ≠ digitChars ds ∧ cs ≠ '-' :: digitChars ds) →
    readField cs = .malformed)

/-- R195, U15: a line, with any spaces and tabs around and between its fields, that has a fifth field, or one of the first
four of which is hexadecimal or too large (for its register, or for 32 bits), is left out of the model: `PARSE` refuses it.
(Which fields and which white space these are is the model's choice, log 15.) -/
def Obligations.ParseRefusesWhatSpecLeavesOut : Prop :=
  ∀ (s : State) (text : List Char) (fields : List (List Char)),
    (Instr.parse text).WellFormed = true → IsLineOf text fields →
    (4 < fields.length ∨
      ∃ j f, j < 4 ∧ fields[j]? = some f ∧ (readField f = .outside ∨
        ∃ z, readField f = .value z ∧ ¬ (-(2 ^ 31) ≤ z ∧ z < (if j < 3 then 2 ^ 32 else 2 ^ 31)))) →
    exec (.parse text) s = .refused .parseOutsideSpec

/-! ## START, the gate and the error (R131 to R134, R192, R213, R250) -/

/-- R192: `START` in `Idle` samples the request, clears `RESULT` and applies the gate. On accept it forces its line low,
sets `REPS = 2^e`, `ACC = ENCODE(CODE)`, `K = 0` and enters `Repeating`; on reject it raises `MalformedRequest` and writes
nothing of the request but `L_PIN` and `L_PERIOD`. Beside these only the temporaries change. -/
def Obligations.StartSamplesAndGatesRequest : Prop :=
  ∀ (v : Word) (s : State), s.st = .idle →
    (GatePasses s.repeatExp s.repLimit →
      ∃ (tmp : Temps) (reps : BitVec 8),
        reps.toNat = 2 ^ s.repeatExp.toInt.toNat ∧
        exec (.start v) s = .next { s with
          lPin := s.pin, lPeriod := s.period, result := .none, out := false
          lines := linesWrite s.pin.toNat false s.lines, trace := s.trace ++ [.set s.pin false]
          reps := reps, acc := encodeAcc s.code, k := 0#7, st := .repeating, tmp := tmp }) ∧
    (¬ GatePasses s.repeatExp s.repLimit →
      exec (.start v) s = .next { s with
        lPin := s.pin, lPeriod := s.period, result := .malformedRequest, out := false
        lines := linesWrite s.pin.toNat false s.lines, trace := s.trace ++ [.set s.pin false] })

/-- R250, R192: a `START` while `STATE` is not `Idle` has no next state. -/
def Obligations.StartWhileBusyIsRefused : Prop :=
  ∀ (v : Word) (s : State), s.st ≠ .idle → exec (.start v) s = .refused .startWhileBusy

/-- R133, R134, R213: `GATE` and `ACCEPT` on their own: where the gate passes both set the request up; where it does not
`GATE` raises the error, which writes nothing but the line, `RESULT` and `STATE`. R133 has them within `START`, from `Idle`;
that they run on their own in every state with no hold in progress is the model's choice (log 12). -/
def Obligations.GateAcceptsOrRaises : Prop :=
  ∀ s : State,
    s.hact = false →
    (GatePasses s.repeatExp s.repLimit → ∃ tmp reps u, reps.toNat = 2 ^ s.repeatExp.toInt.toNat ∧
      exec .gate s = .next u ∧ exec .accept s = .next u ∧
      u = { s with
        out := false, lines := linesWrite s.lPin.toNat false s.lines, trace := s.trace ++ [.set s.lPin false]
        reps := reps, acc := encodeAcc s.code, k := 0#7, st := .repeating, tmp := tmp }) ∧
    (¬ GatePasses s.repeatExp s.repLimit →
      exec .gate s = .next { s with
        out := false, lines := linesWrite s.lPin.toNat false s.lines, trace := s.trace ++ [.set s.lPin false]
        result := .malformedRequest, st := .idle })

/-- R131, R60: `FORCE_LOW` gives the request's line the level 0, whatever it was, and touches no other line. That it runs
on its own in every state with no hold in progress is the model's choice (log 12). -/
def Obligations.ForceLowSetsOnlyTheLine : Prop :=
  ∀ s : State, s.hact = false → ∃ lines,
    exec .forceLow s = .next { s with out := false, lines := lines, trace := s.trace ++ [.set s.lPin false] } ∧
    ∀ x, linesRead x lines = if x = s.lPin.toNat then some false else linesRead x s.lines

/-! ## The encoder (R110 to R119) -/

/-- R110: `MASK` keeps the code's low twenty bits. That on its own it writes them to `WORK` (log 9), and that it runs in
every state with no hold in progress (log 12), is the model's choice. -/
def Obligations.MaskKeepsTwentyBits : Prop :=
  ∀ (code : Word) (s : State), s.hact = false → ∃ w : BitVec 20, w.toNat = code.toNat % 2 ^ 20 ∧
    exec (.mask code) s = .next { s with tmp := { s.tmp with work := w } }

/-- R111: `ENC.STEP` on the numbers. That on its own it writes `WORK`, `A` and `t` and leaves `N` (log 9), and that it runs
in every state with no hold in progress (log 12), is the model's choice. -/
def Obligations.EncStepExtractsOneDigit : Prop :=
  ∀ s : State, s.hact = false → ∃ (t : BitVec 2) (work : BitVec 20) (a : BitVec 24),
    exec .encStep s = .next { s with tmp := { s.tmp with t := t, work := work, a := a } } ∧
    t.toNat = s.tmp.work.toNat % 3 ∧ work.toNat = s.tmp.work.toNat / 3 ∧
    a.toNat = s.tmp.a.toNat * 4 % 2 ^ 24 + s.tmp.work.toNat % 3

/-- R113, R119: `ENCODE` writes `ACC` (and its temporaries) and nothing else. That `WORK` keeps the residue of R116
afterwards (log 9), and that `ENCODE` runs on its own in every state with no hold in progress (log 12), is the model's
choice. -/
def Obligations.EncodeWritesAccumulatorOnly : Prop :=
  ∀ (code : Word) (s : State), s.hact = false → ∃ tmp : Temps,
    exec (.encode code) s = .next { s with acc := encodeAcc code, tmp := tmp } ∧
    tmp.work.toNat = code.toNat % 2 ^ 20 / 3 ^ 12

/-- R114: the closed form of `ENCODE`. -/
def Obligations.EncodeHasClosedForm : Prop :=
  ∀ code : Word,
    (encodeAcc code).toNat = ((List.range 12).map fun n => codeDigit code n * 4 ^ (11 - n)).sum

/-- R116, R117: only the low twenty bits count; codes from `3^12` alias to the code `3^12` less, with the residue 1 left in
`WORK`; and below `3^12` `ENCODE` is injective. That `WORK` keeps the residue after `ENCODE` (log 9), and that `ENCODE` runs
on its own in every state with no hold in progress (log 12), is the model's choice. -/
def Obligations.EncodeAliasesAboveThreeToTwelve : Prop :=
  (∀ code : Word, encodeAcc code = encodeAcc (code &&& 0xFFFFF#32)) ∧
  (∀ c : Nat, 531441 ≤ c → c < 2 ^ 20 → encodeAcc (BitVec.ofNat 32 c) = encodeAcc (BitVec.ofNat 32 (c - 531441))) ∧
  (∀ (c : Nat) (s : State), s.hact = false → 531441 ≤ c → c < 2 ^ 20 →
    ∃ t, exec (.encode (BitVec.ofNat 32 c)) s = .next t ∧ t.tmp.work = 1#20) ∧
  (∀ c d : Nat, c < 531441 → d < 531441 → encodeAcc (BitVec.ofNat 32 c) = encodeAcc (BitVec.ofNat 32 d) → c = d)

/-- R115, R86: `TRITSEL` reads the pair of the cursor, in either `TX_ORDER`, and changes only the trit read. That on its own
it leaves the pair in the temporary `t` (log 9), and that it runs in every state with no hold in progress (log 12), is the
model's choice. -/
def Obligations.TritselReadsCursorPair : Prop :=
  ∀ s : State, s.hact = false → ∃ t : BitVec 2, t.toNat = sentTrit s.build.txOrder s.acc s.i.val ∧
    exec .tritsel s = .next { s with tmp := { s.tmp with t := t } }

/-- R86, R85, R118: of an encoded code the trit sent at cursor `i` is digit `d_(11-i)` under `LSPAIR_FIRST` and `d_i`
under `MSPAIR_FIRST`, and it is never the reserved code. -/
def Obligations.SentTritIsCodeDigit : Prop :=
  ∀ (code : Word) (i : Nat), i < 12 →
    sentTrit .lspairFirst (encodeAcc code) i = codeDigit code (11 - i) ∧
    sentTrit .mspairFirst (encodeAcc code) i = codeDigit code i ∧
    (∀ order, sentTrit order (encodeAcc code) i ≠ 3)

/-! ## The sequencer (R130 to R149, R155) -/

/-- R155: in `Idle` the sequencer's step changes nothing. -/
def Obligations.IdleStepChangesNothing : Prop :=
  ∀ s : State, s.st = .idle → s.hact = false →
    exec .idle s = .next s ∧ (s.agenda = [] → step s = .next s)

/-- R135: `REPEATING` resets the cursor and enters the first symbol. -/
def Obligations.RepeatingResetsCursor : Prop :=
  ∀ s : State, s.st = .repeating → s.hact = false →
    exec .repeating s = .next { s with i := 0, h := 0#2, st := .emittingSymbol }

/-- R136, R140, R141, R88, at the event level: `EMIT` performs hold `H` of the symbol of the trit at the cursor, and
moves the position. What `DLY` and the model's own counter hold after it is the model's choice (log 10). -/
def Obligations.EmitPerformsOneHold : Prop :=
  ∀ s : State, s.st = .emittingSymbol → s.hact = false → s.build.timing = .event →
    sentTrit s.build.txOrder s.acc s.i.val ≠ 3 →
    ∃ (n : Nat) (st : SeqState) (i : Fin 12) (h : BitVec 2) (t : BitVec 2) (dly held : BitVec 37),
      n = tableMult (sentTrit s.build.txOrder s.acc s.i.val) s.h.toNat * s.lPeriod.toNat ∧
      t.toNat = sentTrit s.build.txOrder s.acc s.i.val ∧
      (st, i.val, h.toNat) =
        (if s.h.toNat < 3 then (.emittingSymbol, s.i.val, s.h.toNat + 1)
         else if s.i.val < 11 then (.emittingSymbol, s.i.val + 1, 0)
         else (.syncPulse, s.i.val, 0)) ∧
      exec .emit s = .next { s with
        out := decide (s.h.toNat % 2 = 0)
        lines := linesWrite s.lPin.toNat (decide (s.h.toNat % 2 = 0)) s.lines
        now := s.now + n * Config.ticksPerUs
        trace := s.trace ++ [.set s.lPin (decide (s.h.toNat % 2 = 0)), .wait n]
        st := st, i := i, h := h, tmp := { s.tmp with t := t }, dly := dly, held := held }

/-- R94, U4: where the pair at the cursor is the reserved `0b11`, `EMIT` has no next state. -/
def Obligations.EmitRefusesReservedTrit : Prop :=
  ∀ s : State, s.st = .emittingSymbol → s.hact = false → sentTrit s.build.txOrder s.acc s.i.val = 3 →
    exec .emit s = .refused .reservedTrit

/-- R142, R89, at the event level: the high hold of the sync pulse, and its low hold, after which `NEXT` or `FINISH`
follows. What `DLY` holds after it is left open (log 10), and so is `K + 1` past 127, in states no run reaches (log 26). -/
def Obligations.SyncPerformsOneHold : Prop :=
  ∀ s : State, s.st = .syncPulse → s.hact = false → s.build.timing = .event →
    ∃ (dly held : BitVec 37) (lines : List (Nat × Level)) (k : BitVec 7),
      (∀ x, linesRead x lines = if x = s.lPin.toNat then some (decide (s.h = 0#2)) else linesRead x s.lines) ∧
      (s.k.toNat < 127 → k.toNat = s.k.toNat + 1) ∧
      (s.h = 0#2 →
        exec .sync s = .next { s with
          out := true, lines := lines, now := s.now + s.lPeriod.toNat * Config.ticksPerUs
          trace := s.trace ++ [.set s.lPin true, .wait s.lPeriod.toNat], h := 1#2, dly := dly, held := held }) ∧
      (s.h = 1#2 →
        exec .sync s = .next
          (let low : State := { s with
            out := false, lines := lines, dly := dly, held := held
            now := s.now + 31 * s.lPeriod.toNat * Config.ticksPerUs
            trace := s.trace ++ [.set s.lPin false, .wait (31 * s.lPeriod.toNat)] }
          if s.k.toNat + 1 < s.reps.toNat then { low with k := k, st := .repeating }
          else { low with trace := low.trace ++ [.set s.lPin false], result := .ok, st := .idle }))

/-- R147, R148: `NEXT` and `FINISH` at the end of a sync pulse. (Performed on their own, which states count as that is the
model's choice, log 31; the premise takes `H = 1` with no hold in progress.) -/
def Obligations.NextAndFinishEndTelegram : Prop :=
  ∀ s : State, s.st = .syncPulse → s.hact = false → s.h = 1#2 →
    (s.k.toNat + 1 < s.reps.toNat → ∃ k : BitVec 7, (s.k.toNat < 127 → k.toNat = s.k.toNat + 1) ∧
      exec .nextTelegram s = .next { s with k := k, st := .repeating }) ∧
    (s.k.toNat + 1 = s.reps.toNat →
      exec .finish s = .next { s with
        out := false, lines := linesWrite s.lPin.toNat false s.lines, trace := s.trace ++ [.set s.lPin false]
        result := .ok, st := .idle })

/-- R137, R138, R139: the three symbols, hold by hold, with their total of 8 periods; `t` is the trit. R97 selects a symbol
within `EMIT`; that it runs on its own in every state with no hold in progress is the model's choice (log 12), and that it
then has the holds of the event level at the tick level too is the model's reading (log 13). -/
def Obligations.SymbolsPerformFourHolds : Prop :=
  ∀ (s : State), s.hact = false → ∀ t < 3, ∃ (u : State) (dly held : BitVec 37) (lines : List (Nat × Level)),
    exec (if t = 0 then .sym0 else if t = 1 then .sym1 else .sym2) s = .next u ∧
    u = { s with
      out := false, lines := lines, dly := dly, held := held
      now := s.now + 8 * s.lPeriod.toNat * Config.ticksPerUs
      trace := s.trace ++
        [.set s.lPin true, .wait (tableMult t 0 * s.lPeriod.toNat),
         .set s.lPin false, .wait (tableMult t 1 * s.lPeriod.toNat),
         .set s.lPin true, .wait (tableMult t 2 * s.lPeriod.toNat),
         .set s.lPin false, .wait (tableMult t 3 * s.lPeriod.toNat)] } ∧
    ∀ x, linesRead x lines = if x = s.lPin.toNat then some false else linesRead x s.lines

/-- R92, R135, R136, R142, R147, R148, R155, R170, R173: a sequencer step taken in another state, or while a hold is in
progress, `NEXT` and `FINISH` elsewhere than at the end of a sync pulse, `ACCEPT` where the gate fails, and `HOLD`, a symbol
and `TX` while a hold is in progress, are not enabled (the stop is the model's, log 12, and which states are the end of a
sync pulse is log 31). -/
def Obligations.UnselectedStepsAreRefused : Prop :=
  ∀ s : State,
    (¬ (s.st = .idle ∧ s.hact = false) → exec .idle s = .refused .notSelected) ∧
    (¬ (s.st = .repeating ∧ s.hact = false) → exec .repeating s = .refused .notSelected) ∧
    (¬ (s.st = .emittingSymbol ∧ s.hact = false) → exec .emit s = .refused .notSelected) ∧
    (¬ (s.st = .syncPulse ∧ s.hact = false) → exec .sync s = .refused .notSelected) ∧
    (¬ (s.st = .syncPulse ∧ s.hact = false ∧ s.h = 1#2 ∧ s.k.toNat + 1 < s.reps.toNat) →
      exec .nextTelegram s = .refused .notSelected) ∧
    (¬ (s.st = .syncPulse ∧ s.hact = false ∧ s.h = 1#2 ∧ s.k.toNat + 1 = s.reps.toNat) →
      exec .finish s = .refused .notSelected) ∧
    (¬ GatePasses s.repeatExp s.repLimit → exec .accept s = .refused .notSelected) ∧
    (s.hact = true → ∀ l m, exec (.hold l m) s = .refused .notSelected) ∧
    (s.hact = true → exec .sym0 s = .refused .notSelected ∧ exec .sym1 s = .refused .notSelected ∧
      exec .sym2 s = .refused .notSelected) ∧
    (s.hact = true → s.st = .idle → ∀ pin code period rep,
      exec (.tx pin code period rep) s = .refused .notSelected)

/-! ## The timing controller (R171 to R177) -/

/-- R171, R172: `HOLD l, m` at the event level: a `Set`, then a `Wait` of exactly `m * L_PERIOD`. That it runs on its own in
every state with no hold in progress is the model's choice (log 12). -/
def Obligations.HoldSetsLineAndWaits : Prop :=
  ∀ (l : Level) (m : BitVec 5) (s : State), s.build.timing = .event → s.hact = false →
    ∃ dly held : BitVec 37,
      exec (.hold l m) s = .next { s with
        out := l, lines := linesWrite s.lPin.toNat l s.lines
        now := s.now + m.toNat * s.lPeriod.toNat * Config.ticksPerUs
        trace := s.trace ++ [.set s.lPin l, .wait (m.toNat * s.lPeriod.toNat)], dly := dly, held := held }

/-- R173, R172, R41: at the tick level `HOLD l, m` starts: the line is set, `DLY` holds the exact product, `HACT` is 1,
and no time passes; `EMIT` and `SYNC` do no more than start the hold they perform at the event level. That `HOLD` runs on its
own in every state with no hold in progress is the model's choice (log 12). -/
def Obligations.TickLevelHoldsStartAndBlock : Prop :=
  (∀ (l : Level) (m : BitVec 5) (s : State), s.build.timing = .tick → s.hact = false →
    ∃ (dly held : BitVec 37),
      dly.toNat = m.toNat * s.lPeriod.toNat * Config.ticksPerUs ∧
      exec (.hold l m) s = .next { s with
        out := l, lines := linesWrite s.lPin.toNat l s.lines, trace := s.trace ++ [.set s.lPin l]
        dly := dly, hact := true, held := held }) ∧
  (∀ s : State, s.build.timing = .tick → s.hact = false →
    (s.st = .emittingSymbol → sentTrit s.build.txOrder s.acc s.i.val ≠ 3 →
      ∃ (m : BitVec 5) (t : BitVec 2) (u : State),
        m.toNat = tableMult (sentTrit s.build.txOrder s.acc s.i.val) s.h.toNat ∧
        t.toNat = sentTrit s.build.txOrder s.acc s.i.val ∧
        exec .emit s = .next u ∧
        exec (.hold (decide (s.h.toNat % 2 = 0)) m) { s with tmp := { s.tmp with t := t } } = .next u) ∧
    (s.st = .syncPulse → ∃ u,
      exec .sync s = .next u ∧ exec (.hold (decide (s.h = 0#2)) (if s.h = 0#2 then 1#5 else 31#5)) s = .next u))

/-- R173, R170: while a hold is in progress, no operation has a next state but `TICK`, `RESET`, the host's reads and writes
of registers, and `PARSE`, which is such writes (log 15). R173 says so while ticks are left; that a hold which has run out
still blocks until its end is read from R170 and R174 (log 12). -/
def Obligations.HoldBlocksAllButTicks : Prop :=
  ∀ (i : Instr) (s t : State), s.hact = true → exec i s = .next t →
    (i = .tick ∧ s.dly ≠ 0#37) ∨ i = .reset ∨ (∃ w, encode i = .host w) ∨ ∃ text, i = .parse text

/-- R173, R174: a tick counts the hold down by one; in `Idle` it changes only the time; where an urgent step is due it
is not enabled. -/
def Obligations.TickCountsHoldDown : Prop :=
  ∀ s : State,
    (s.hact = true → s.dly ≠ 0#37 → ∃ (dly held : BitVec 37), dly.toNat + 1 = s.dly.toNat ∧
      exec .tick s = .next { s with dly := dly, now := s.now + 1, held := held }) ∧
    (s.hact = false → s.st = .idle → exec .tick s = .next { s with now := s.now + 1 }) ∧
    (s.hact = true → s.dly = 0#37 → exec .tick s = .refused .notSelected) ∧
    (s.hact = false → s.st ≠ .idle → exec .tick s = .refused .notSelected)

/-- R174: when the hold has run out the sequencer's turn ends it: `HACT` falls, no time passes, and the position moves as
`EMIT` or `SYNC` says, `NEXT` or `FINISH` following the last hold of a telegram. That the wait which passed enters the
trace here is the model's reading (log 11). -/
def Obligations.HoldEndsWhenDelayIsZero : Prop :=
  ∀ s : State, s.agenda = [] → s.hact = true → s.dly = 0#37 →
    ∃ u : State, step s = .next u ∧ u.hact = false ∧ u.now = s.now ∧
      (s.st = .emittingSymbol → u.trace = s.trace ++ [.wait s.held.toNat] ∧ u.k = s.k ∧
        (u.st, u.i.val, u.h.toNat) =
          (if s.h.toNat < 3 then (.emittingSymbol, s.i.val, s.h.toNat + 1)
           else if s.i.val < 11 then (.emittingSymbol, s.i.val + 1, 0)
           else (.syncPulse, s.i.val, 0))) ∧
      (s.st = .syncPulse → u.i = s.i) ∧
      (s.st = .syncPulse → s.h = 0#2 →
        u.trace = s.trace ++ [.wait s.held.toNat] ∧ u.st = .syncPulse ∧ u.k = s.k ∧ u.h = 1#2) ∧
      (s.st = .syncPulse → s.h ≠ 0#2 → s.k.toNat + 1 < s.reps.toNat →
        u.trace = s.trace ++ [.wait s.held.toNat] ∧ u.st = .repeating ∧ u.h = s.h ∧
          (s.k.toNat < 127 → u.k.toNat = s.k.toNat + 1)) ∧
      (s.st = .syncPulse → s.h ≠ 0#2 → ¬ s.k.toNat + 1 < s.reps.toNat →
        u.trace = s.trace ++ [.wait s.held.toNat, .set s.lPin false] ∧ u.st = .idle ∧ u.result = .ok ∧
          u.k = s.k ∧ u.h = s.h)

/-- R174: the end of a hold is urgent. Where a hold has run out no operation takes time, nor does any step, and a step that
the sequencer takes there ends the hold. (That a tick which comes there stays pending is the model's reading, log 23.) -/
def Obligations.HoldEndIsUrgent : Prop :=
  ∀ s t : State, s.hact = true → s.dly = 0#37 →
    (∀ i : Instr, exec i s = .next t → t.now = s.now) ∧
    (step s = .next t → t.now = s.now) ∧
    (∀ rest, (s.agenda = .sequencer :: rest ∨ s.agenda = .input (.event .tick) :: rest) → step s = .next t → t.hact = false)

/-- R177 for one hold: at the tick level a step of the sequencer, as many ticks as the hold lasts, and the end of the
hold together lead to the very state the step leads to at the event level. R177 speaks of the `Set` events and the ticks
between them; that the whole states agree rests on the model's readings of `DLY` after an event-level hold (log 10), of
where the `Wait` enters the trace (log 11) and of who ticks (log 30). -/
def Obligations.TickLevelHoldAgreesWithEventLevel : Prop :=
  ∀ (s u : State) (i : Instr), i = .emit ∨ i = .sync →
    s.build.timing = .tick → s.agenda = [] → s.hact = false →
    s.st = (if i = .emit then .emittingSymbol else .syncPulse) →
    exec i { s with build := { s.build with timing := .event } } = .next u →
    runSteps (2 + (u.now - s.now)) s = .next { u with build := s.build }

/-! ## The request as one function (R151 to R158) -/

/-- R152, R88, R89: whatever the twelve trits, a telegram has 50 `Set` events that alternate high and low, and lasts
128 periods. -/
def Obligations.TelegramHasConstantLength : Prop :=
  ∀ (pin period : Word) (trits : List Trit), trits.length = 12 →
    setLevels (telegramTrace pin trits period) = (List.replicate 25 [true, false]).flatten ∧
    totalWait (telegramTrace pin trits period) = 128 * period.toNat

/-- R151: a request as one function, where no hold is in progress. Accepted, its trace is the entry force-low, `2^e` times
the telegram of the code's trits in transmission order, and the exit force-low, and its result is `Ok`; rejected, its trace
is the single `Set(pin, 0)` and its result `MalformedRequest`. The model's reading of `TX` as one operation: it writes the
four request registers and, like `START`, is refused while `STATE` is not `Idle` (logs 14, 19), and its holds are
event-level holds at either level (log 13). -/
def Obligations.TxIsTheRequestFunction : Prop :=
  ∀ (pin code period rep : Word) (s : State),
    (s.st ≠ .idle → exec (.tx pin code period rep) s = .refused .startWhileBusy) ∧
    (s.st = .idle → s.hact = false → GatePasses rep s.repLimit → ∃ (u : State) (trits : List Trit),
      exec (.tx pin code period rep) s = .next u ∧
      trits.map (fun t => match t with | .t0 => 0 | .t1 => 1 | .t2 => 2) =
        (List.range 12).map (fun i => sentTrit s.build.txOrder (encodeAcc code) i) ∧
      u.trace = s.trace ++ [.set pin false] ++
        (List.replicate (2 ^ rep.toInt.toNat) (telegramTrace pin trits period)).flatten ++ [.set pin false] ∧
      u.result = .ok ∧ u.st = .idle ∧ u.out = false ∧
      u.pin = pin ∧ u.code = code ∧ u.period = period ∧ u.repeatExp = rep ∧ u.repLimit = s.repLimit ∧
      (∀ x, linesRead x u.lines = if x = pin.toNat then some false else linesRead x s.lines)) ∧
    (s.st = .idle → s.hact = false → ¬ GatePasses rep s.repLimit →
      exec (.tx pin code period rep) s = .next { s with
        pin := pin, code := code, period := period, repeatExp := rep, lPin := pin, lPeriod := period
        out := false, lines := linesWrite pin.toNat false s.lines, trace := s.trace ++ [.set pin false]
        result := .malformedRequest })

/-- R153: an accepted request lasts `128 * P * 2^e` microseconds, a rejected one no time. -/
def Obligations.RequestLastsExactTime : Prop :=
  ∀ (pin code period rep : Word) (s u : State), exec (.tx pin code period rep) s = .next u →
    (GatePasses rep s.repLimit →
      u.now = s.now + 128 * period.toNat * 2 ^ rep.toInt.toNat * Config.ticksPerUs) ∧
    (¬ GatePasses rep s.repLimit → u.now = s.now)

/-- R158: what a request appends to the trace, and its result, depend on nothing but `(pin, code, P, e, limit)` (and
`TX_ORDER`), and on the code only through `ENCODE`: not on earlier requests, the line, or the time. -/
def Obligations.RequestTraceDependsOnRequestOnly : Prop :=
  ∀ (pin code code' period rep : Word) (s s' u u' : State),
    s.repLimit = s'.repLimit → s.build.txOrder = s'.build.txOrder →
    code.toNat % 2 ^ 20 % 531441 = code'.toNat % 2 ^ 20 % 531441 →
    exec (.tx pin code period rep) s = .next u → exec (.tx pin code' period rep) s' = .next u' →
    u.result = u'.result ∧ ∃ events, u.trace = s.trace ++ events ∧ u'.trace = s'.trace ++ events

/-- R96: the shorthand `REQUEST` is its five host operations: it ends where `START` on the written registers ends. -/
def Obligations.RequestShorthandIsFiveOperations : Prop :=
  ∀ (s : State) (pin code period rep : Word) (rest : List Turn), s.st = .idle →
    runSteps 5 { s with agenda := requestTurns ⟨pin, code, period, rep⟩ ++ rest } =
      exec (.start 1#32)
        { s with pin := pin, code := code, period := period, repeatExp := rep, agenda := rest }

/-- R157, at the event level: after an accepted `START` the sequencer takes exactly `51 * REPS` steps, is in `Idle` after
them and not before, and has then appended the trace, left the result, driven the lines and taken the time that the
request as one function gives; a rejected `START` is the whole request. -/
def Obligations.StateMachineAgreesWithTx : Prop :=
  ∀ (v : Word) (s : State), s.st = .idle → s.hact = false → s.build.timing = .event → s.agenda = [] →
    (GatePasses s.repeatExp s.repLimit → ∃ a b u, exec (.start v) s = .next a ∧
      runSteps (51 * 2 ^ s.repeatExp.toInt.toNat) a = .next b ∧
      exec (.tx s.pin s.code s.period s.repeatExp) s = .next u ∧
      b.trace = u.trace ∧ b.result = u.result ∧ b.st = .idle ∧ b.lines = u.lines ∧ b.now = u.now ∧
      ∀ j, j < 51 * 2 ^ s.repeatExp.toInt.toNat → ∃ c, runSteps j a = .next c ∧ c.st ≠ .idle) ∧
    (¬ GatePasses s.repeatExp s.repLimit →
      exec (.tx s.pin s.code s.period s.repeatExp) s = exec (.start v) s)

/-- R177 for a whole request: at the tick level the machine ends in the very state the request as one function gives,
after one `REPEATING`, fifty starts and ends of holds and `128 * P` ticks a telegram. (The position and the temporaries
that function leaves are the model's reading, log 14, as are `DLY` after it and who ticks, logs 10, 11 and 30.) -/
def Obligations.TickLevelRequestAgreesWithTx : Prop :=
  ∀ (v : Word) (s : State), s.st = .idle → s.hact = false → s.build.timing = .tick → s.agenda = [] →
    GatePasses s.repeatExp s.repLimit → ∃ a b, exec (.start v) s = .next a ∧
      runSteps ((101 + 128 * s.period.toNat * Config.ticksPerUs) * 2 ^ s.repeatExp.toInt.toNat) a = .next b ∧
      exec (.tx s.pin s.code s.period s.repeatExp) s = .next b

/-! ## Encoding (R80 to R97) -/

/-- Decoding what the encoder gives for a well-formed operation gives it back, every operand at every value; and what
decodes is well formed and encodes to the form it came from, so no bit is dropped. -/
def Obligations.DecodeAndEncodeAgree : Prop :=
  (∀ i : Instr, i.WellFormed = true → decode (encode i) = .ok i) ∧
  (∀ (w : OpWord) (i : Instr), decode w = .ok i → i.WellFormed = true ∧ encode i = w)

/-- R93: which operation each `HOST` word selects, by `W`, `n` and, for a write of `CTRL`, `v[0]`. -/
def Obligations.HostWordSelectsOperation : Prop :=
  ∀ (wn : Nat) (v : Word), wn < 16 →
    decode (.host (BitVec.ofNat 36 (wn * 2 ^ 32 + v.toNat))) = .ok
      (([.rdPin v, .rdCode v, .rdPeriod v, .rdRepeat v, .rdRepLimit v, .rdZeroCtrl v, .rdStatus v, .rdZeroUnused v,
        .wrPin v, .wrCode v, .wrPeriod v, .wrRepeat v, .wrRepLimit v,
        (if v.toNat % 2 = 1 then .start v else .wrNopCtrl v), .wrNopStatus v, .wrNopUnused v] : List Instr).getD wn
        .reset)

/-- Words written out from R81, R82, R87, R90, R92 and R93 decode to the operations they stand for. -/
def Obligations.WrittenOutWordsDecode : Prop :=
  decode (.host 0x900100005#36) = .ok (.wrCode 0x100005#32) ∧
  decode (.host 0xDFFFFFFFF#36) = .ok (.start 0xFFFFFFFF#32) ∧
  decode (.req 0x00000002000FFFFF000000FAFFFFFFFF#128) =
    .ok (.tx 2#32 0xFFFFF#32 250#32 0xFFFFFFFF#32) ∧
  decode (.maskCode 0x001000FF#32) = .ok (.mask 0x001000FF#32) ∧
  decode (.encodeCode 0x00081BF1#32) = .ok (.encode 531441#32) ∧
  decode (.trit 0b10#2) = .ok .sym2 ∧ decode (.trit 0b11#2) = .error .reservedTrit ∧
  decode (.seq 0b11#2) = .ok .sync ∧ decode (.hold 0x1F#6) = .ok (.hold false 31#5)

/-! ## The whole machine -/

/-- The invariant is kept by every step. -/
def Obligations.EveryStepKeepsInvariant : Prop :=
  ∀ s t : State, Inv s → step s = .next t → Inv t

/-- An input on the agenda that decodes is performed by the next step: the operation is R97's, and that the head of the
agenda says what comes next is the model's choice (log 1). A tick of the time base does not pass before an urgent step of
the sequencer (R174), which moves first; that the tick then stays pending is the model's reading (log 23). -/
def Obligations.StepRunsDecodedInput : Prop :=
  ∀ (s : State) (w : OpWord) (i : Instr) (rest : List Turn), decode w = .ok i →
    ((w = .event .tick → urgent s = false) →
      step { s with agenda := .input w :: rest } = exec i { s with agenda := rest }) ∧
    (w = .event .tick → urgent s = true →
      step { s with agenda := .input w :: rest } = step { s with agenda := .sequencer :: .input w :: rest })

/-- On its turn the sequencer takes the step its `STATE` selects (R92). That it has the turn with nothing pending is the
model's choice (log 1), and so is that its turn in a hold with ticks left is the time base's next tick (log 30). -/
def Obligations.SequencerTakesSelectedStep : Prop :=
  ∀ (s : State) (rest : List Turn),
    (s.hact = false →
      step { s with agenda := .sequencer :: rest } =
        exec (match s.st with
          | .idle => .idle | .repeating => .repeating | .emittingSymbol => .emit | .syncPulse => .sync)
          { s with agenda := rest }) ∧
    (s.hact = true → s.dly ≠ 0#37 →
      step { s with agenda := .sequencer :: rest } = exec .tick { s with agenda := rest }) ∧
    step { s with agenda := [] } = step { s with agenda := [.sequencer] }

/-- R70, R217, R253: a host write of a register and a step of the sequencer give the same result in either order. -/
def Obligations.HostWriteCommutesWithSequencer : Prop :=
  ∀ (s t : State) (v : Word) (i : Instr), s.agenda = [] → step s = .next t →
    i = .wrPin v ∨ i = .wrCode v ∨ i = .wrPeriod v ∨ i = .wrRepeat v ∨ i = .wrRepLimit v →
    ∃ s' t', exec i s = .next s' ∧ exec i t = .next t' ∧ step s' = .next t'

/-- R130, R243: a request in progress is left only by a reset or at the end of its last telegram. -/
def Obligations.OnlyResetOrCompletionEndsRequest : Prop :=
  ∀ s t : State, Inv s → step s = .next t → s.st ≠ .idle → t.st = .idle →
    (∃ rest, s.agenda = .input (.event .reset) :: rest) ∨ (∃ w rest, s.agenda = .resetWins w :: rest) ∨
    (∃ n rest, s.agenda = .resetAfter n :: rest ∧ t.agenda = rest) ∨
    (s.st = .syncPulse ∧ s.h = 1#2 ∧ s.k.toNat + 1 = s.reps.toNat ∧ t.result = .ok)

/-- R149: no operation but `FINISH` (alone, or as the tail of `SYNC` and `TX`) writes `RESULT = Ok`, and where a step
writes it, it is after the final force-low: the trace ends with it, the line is low and `BUSY` is 0. -/
def Obligations.OkIsWrittenAfterFinalForceLow : Prop :=
  (∀ (i : Instr) (s t : State), exec i s = .next t → s.result ≠ .ok → t.result = .ok →
    i = .finish ∨ i = .sync ∨ ∃ pin code period rep, i = .tx pin code period rep) ∧
  (∀ s t : State, step s = .next t → s.result ≠ .ok → t.result = .ok →
    busy t = false ∧ t.out = false ∧ (∃ events, t.trace = events ++ [.set t.lPin false]) ∧
    linesRead t.lPin.toNat t.lines = some false)

/-- R36, R73, R39, R40: the latched request is written by `START` (alone, by its parts, or within `TX`), by `ENCODE`
and by reset, and by no other operation. -/
def Obligations.LatchedRequestIsImmutable : Prop :=
  ∀ (i : Instr) (s t : State), exec i s = .next t →
    ((t.acc, t.reps) ≠ (s.acc, s.reps) → i = .gate ∨ i = .accept ∨ i = .reset ∨ (∃ v, i = .start v) ∨
      (∃ code, i = .encode code) ∨ ∃ pin code period rep, i = .tx pin code period rep) ∧
    ((t.lPin, t.lPeriod) ≠ (s.lPin, s.lPeriod) → i = .reset ∨ (∃ v, i = .start v) ∨
      ∃ pin code period rep, i = .tx pin code period rep)

/-- R73, R36, R39, R40: while a request is in progress no step changes its trits, its count, its line or its period. -/
def Obligations.RequestInProgressIsImmutable : Prop :=
  ∀ s t : State, Inv s → step s = .next t → s.st ≠ .idle → t.st ≠ .idle →
    t.acc = s.acc ∧ t.reps = s.reps ∧ t.lPin = s.lPin ∧ t.lPeriod = s.lPeriod

/-- R150: in `Idle` the level last driven is low, and a step that ends a request, complete or cut by reset, ends its trace
with the forced low of its line, which is then low. -/
def Obligations.EndOfRequestLeavesLineLow : Prop :=
  ∀ s t : State, Inv s → step s = .next t → t.st = .idle →
    t.out = false ∧
    (s.st ≠ .idle → (∃ events, t.trace = events ++ [.set s.lPin false]) ∧
      linesRead s.lPin.toNat t.lines = some false)

/-- R258, R175: only holds, what is made of holds, and ticks take time. -/
def Obligations.OnlyHoldsTakeTime : Prop :=
  ∀ (i : Instr) (s t : State), exec i s = .next t → t.now ≠ s.now →
    i = .emit ∨ i = .sync ∨ i = .sym0 ∨ i = .sym1 ∨ i = .sym2 ∨ i = .tick ∨ (∃ l m, i = .hold l m) ∨
      ∃ pin code period rep, i = .tx pin code period rep

/-- R62: at the event level the time that passes in an operation is the sum of the waits it appends to the trace. -/
def Obligations.TimePassesByWaitsOnly : Prop :=
  ∀ (i : Instr) (s t : State), s.build.timing = .event → s.hact = false → i ≠ .tick → exec i s = .next t →
    ∃ events, t.trace = s.trace ++ events ∧ t.now = s.now + totalWait events * Config.ticksPerUs

/-- R10, R43: on every line `LINES` holds the level of the latest `Set` that names it, and every step keeps that. -/
def Obligations.LinesFollowTrace : Prop :=
  ∀ s t : State, step s = .next t → (∀ x, linesRead x s.lines = lastSet x s.trace) →
    ∀ x, linesRead x t.lines = lastSet x t.trace

/-- R86, R95: `TX_ORDER` is no state: no step changes it. That it stands in `State.build`, and the level of holds beside it
as a second fixed parameter, is the model's choice (logs 4, 5). -/
def Obligations.BuildParametersNeverChange : Prop :=
  ∀ s t : State, step s = .next t → t.build = s.build
end

