-- ==== Sys2Proof/Laws/Encoder.lean ====
section
/-! SUPPORT. What one `ENC.STEP` and `j` of them compute, on the numbers (R111, R113, R116). -/

namespace Sys2Proof.Machine

/-- `ENC.STEP` on the numbers (R111, R112): nothing wraps but the two bits the shift drops. -/
theorem encStep_spec (w : BitVec 20) (a : BitVec 24) :
    (encStep w a).1.toNat = w.toNat % 3 ∧ (encStep w a).2.1.toNat = w.toNat / 3 ∧
      (encStep w a).2.2.toNat = a.toNat * 4 % 2 ^ 24 + w.toNat % 3 := by
  have h3 : w.toNat % 3 < 3 := Nat.mod_lt _ (by decide)
  have hw := w.isLt
  have hd : ((BitVec.ofNat 2 (w.toNat % 3)).setWidth 24).toNat = w.toNat % 3 := by
    rw [BitVec.toNat_setWidth, BitVec.toNat_ofNat]; omega
  refine ⟨?_, ?_, ?_⟩
  · show (BitVec.ofNat 2 _).toNat = _
    rw [BitVec.toNat_ofNat]; omega
  · show (BitVec.ofNat 20 _).toNat = _
    rw [BitVec.toNat_ofNat]; omega
  · show ((a <<< 2) ||| (BitVec.ofNat 2 (w.toNat % 3)).setWidth 24).toNat = _
    rw [BitVec.toNat_or, hd, BitVec.toNat_shiftLeft, Nat.shiftLeft_eq]
    have e : a.toNat * 2 ^ 2 % 2 ^ 24 = 2 ^ 2 * (a.toNat % 2 ^ 22) := by omega
    rw [e, ← Nat.two_pow_add_eq_or_of_lt (i := 2) (by omega)]
    omega

/-- What is left of `WORK` after `j` iterations (R116). -/
theorem encLoop_work (j : Nat) : ∀ x : Temps, (encLoop j x).work.toNat = x.work.toNat / 3 ^ j := by
  induction j with
  | zero => intro x; simp [encLoop]
  | succ j ih =>
    intro x
    have h : (encIter x).work.toNat = x.work.toNat / 3 := (encStep_spec x.work x.a).2.1
    rw [encLoop, ih, h, Nat.div_div_eq_div_mul, Nat.pow_succ, Nat.mul_comm]

end Sys2Proof.Machine
end

