-- ==== Sys2Proof/Laws/Lines.lean ====
section
/-! SUPPORT. What is true of `LINES` and of traces. -/

namespace Sys2Proof.Machine

/-- A line reads as last written, and a write leaves every other line alone (R60). -/
theorem linesRead_linesWrite (x y : Nat) (v : Level) (l : List (Nat × Level)) :
    linesRead y (linesWrite x v l) = if y = x then some v else linesRead y l := by
  induction l with
  | nil => simp [linesWrite, linesRead, eq_comm]
  | cons c r ih =>
    simp only [linesWrite]
    split
    · simp only [linesRead]; split <;> simp_all [eq_comm]
    · split
      · next hxc => subst hxc; simp only [linesRead, eq_comm]; split <;> rfl
      · simp only [linesRead, ih]
        split <;> split <;> simp_all

/-- What a written map lists. -/
theorem mem_linesWrite {x : Nat} {v : Level} {c : Nat × Level} {l : List (Nat × Level)}
    (h : c ∈ linesWrite x v l) : c = (x, v) ∨ c ∈ l := by
  induction l with
  | nil => simpa [linesWrite] using h
  | cons d r ih =>
    simp only [linesWrite] at h
    split at h
    · simpa using h
    · split at h
      · rcases List.mem_cons.1 h with h | h
        · exact .inl h
        · exact .inr (List.mem_cons_of_mem _ h)
      · rcases List.mem_cons.1 h with h | h
        · exact .inr (h ▸ List.mem_cons_self)
        · rcases ih h with h | h
          · exact .inl h
          · exact .inr (List.mem_cons_of_mem _ h)

/-- Of two writes of one line the later stays. -/
theorem linesWrite_linesWrite (x : Nat) (u v : Level) (l : List (Nat × Level)) :
    linesWrite x v (linesWrite x u l) = linesWrite x v l := by
  induction l with
  | nil => simp [linesWrite]
  | cons c r ih =>
    by_cases h1 : x < c.1
    · simp [linesWrite, h1]
    · by_cases h2 : x = c.1
      · simp [linesWrite, h2]
      · simp [linesWrite, h1, h2, ih]

/-- A write keeps the canonical form. -/
theorem linesWf_linesWrite {x : Nat} (hx : x < 2 ^ 32) (v : Level) {l : List (Nat × Level)} (h : linesWf l) :
    linesWf (linesWrite x v l) := by
  refine ⟨?_, fun c hc => ?_⟩
  · have hs := h.1
    clear h
    induction l with
    | nil => simp [linesWrite]
    | cons d r ih =>
      have hd := List.pairwise_cons.1 hs
      simp only [linesWrite]
      split
      · refine List.pairwise_cons.2 ⟨fun c hc => ?_, hs⟩
        rcases List.mem_cons.1 hc with rfl | hc
        · assumption
        · have := hd.1 c hc; simp only at *; omega
      · split
        · refine List.pairwise_cons.2 ⟨fun c hc => ?_, hd.2⟩
          have := hd.1 c hc; simp only at *; omega
        · refine List.pairwise_cons.2 ⟨fun c hc => ?_, ih hd.2⟩
          rcases mem_linesWrite hc with rfl | hc
          · simp only at *; omega
          · exact hd.1 c hc
  · rcases mem_linesWrite hc with rfl | hc
    · exact hx
    · exact h.2 c hc

theorem linesWf_reset : linesWf State.reset.lines := ⟨List.Pairwise.nil, fun _ h => nomatch h⟩

theorem totalWait_append (a b : List TraceEvent) : totalWait (a ++ b) = totalWait a + totalWait b := by
  induction a with
  | nil => simp [totalWait]
  | cons e r ih => cases e <;> simp [totalWait, ih]; omega

theorem setLevels_append (a b : List TraceEvent) : setLevels (a ++ b) = setLevels a ++ setLevels b := by
  induction a with
  | nil => rfl
  | cons e r ih => cases e <;> simp [setLevels, ih]

theorem lastSet_append (x : Nat) (a b : List TraceEvent) :
    lastSet x (a ++ b) = (lastSet x b).or (lastSet x a) := by
  induction a with
  | nil => simp [lastSet]
  | cons e r ih =>
    cases e with
    | wait n => simpa [lastSet] using ih
    | set p l =>
      simp only [List.cons_append, lastSet, ih]
      cases lastSet x b <;> cases lastSet x r <;> simp

end Sys2Proof.Machine
end

