-- ==== Sys2Proof/Laws/Operands.lean ====
section
/-! SUPPORT. What is true of the operand forms: the two readings of the accumulator's pairs, the pulse-shape table,
durations, the gate, the encoder's loop. -/

namespace Sys2Proof.Machine

/-- The two readings of `TRITSEL` (R115): the slice, and the quotient by a power of four. -/
theorem tritsel_toNat (order : TxOrder) (acc : BitVec 24) (i : Fin 12) :
    (tritsel order acc i).toNat = sentTrit order acc i.val := by
  have h : ∀ j, acc.toNat / 4 ^ j % 4 = acc.toNat >>> (2 * j) % 2 ^ 2 := by
    intro j; rw [Nat.shiftRight_eq_div_pow, Nat.pow_mul]; rfl
  cases order
  · simp only [tritsel, sentTrit, BitVec.extractLsb'_toNat, h]
  · simp only [tritsel, sentTrit, BitVec.extractLsb'_toNat, h]
    congr 2; omega

theorem tritOf_eq_some (b : BitVec 2) (t : Trit) :
    tritOf b = some t ↔ b.toNat = (match t with | .t0 => 0 | .t1 => 1 | .t2 => 2) := by
  revert b; cases t <;> decide

theorem tritOf_eq_none (b : BitVec 2) : tritOf b = none ↔ b.toNat = 3 := by
  revert b; decide

theorem mult_toNat (t : Trit) (b h : BitVec 2) (ht : tritOf b = some t) :
    (mult t h).toNat = tableMult b.toNat h.toNat := by
  revert b h; cases t <;> decide

theorem levelOf_eq (h : BitVec 2) : levelOf h = decide (h.toNat % 2 = 0) := by
  revert h; decide

theorem levelOf_eq' (h : BitVec 2) : levelOf h = !decide (h.toNat % 2 = 1) := by
  revert h; decide

/-- A hold's duration fits in `DLY` (R172). -/
theorem duration_lt (m : BitVec 5) (p : Word) : duration m p < 2 ^ 37 := by
  have h1 := m.isLt
  have h2 := p.isLt
  unfold duration
  calc m.toNat * p.toNat ≤ 31 * (2 ^ 32 - 1) := Nat.mul_le_mul (by omega) (by omega)
    _ < 2 ^ 37 := by norm_num

theorem gateAccepts_iff (rep limit : Word) : gateAccepts rep limit = true ↔ GatePasses rep limit := by
  exact decide_eq_true_iff

theorem trit_some {o : TxOrder} {a : BitVec 24} {i : Fin 12} (h : sentTrit o a i.val ≠ 3) :
    ∃ t, tritOf (tritsel o a i) = some t := by
  cases ht : tritOf (tritsel o a i) with
  | some t => exact ⟨t, rfl⟩
  | none => rw [tritOf_eq_none, tritsel_toNat] at ht; exact absurd ht h

theorem reps_toNat {e : Int} (h0 : 0 ≤ e) (h7 : e ≤ 7) :
    (BitVec.ofNat 8 (expandedCount e)).toNat = 2 ^ e.toNat := by
  have : e = 0 ∨ e = 1 ∨ e = 2 ∨ e = 3 ∨ e = 4 ∨ e = 5 ∨ e = 6 ∨ e = 7 := by omega
  rcases this with rfl | rfl | rfl | rfl | rfl | rfl | rfl | rfl <;> rfl

theorem encLoop_ignores_t (j : Nat) : ∀ x y : Temps, x.work = y.work → x.n = y.n → x.a = y.a →
    (encLoop j x).work = (encLoop j y).work ∧ (encLoop j x).n = (encLoop j y).n ∧
      (encLoop j x).a = (encLoop j y).a := by
  induction j with
  | zero => intro x y h1 h2 h3; exact ⟨h1, h2, h3⟩
  | succ j ih =>
    intro x y h1 h2 h3
    exact ih _ _ (by simp [encIter, encStep, h1]) (by simp [encIter, h2]) (by simp [encIter, encStep, h1, h3])

/-- What `t` held before does not matter to the accumulator (R113). -/
theorem encTemps_a (c : Word) (t : BitVec 2) : (encTemps c t).a = encodeAcc c :=
  (encLoop_ignores_t _ _ _ rfl rfl rfl).2.2

end Sys2Proof.Machine
end

