-- ==== Sys2Proof/Laws/State.lean ====
section
/-! SUPPORT. What each named update of the state does to each field, by `rfl`: later proofs never unfold a record update. -/

namespace Sys2Proof.Machine

@[simp] theorem setOutput_pin (line : Word) (level : Level) (s : State) : (setOutput line level s).pin = s.pin := rfl
@[simp] theorem setOutput_code (line : Word) (level : Level) (s : State) : (setOutput line level s).code = s.code := rfl
@[simp] theorem setOutput_period (line : Word) (level : Level) (s : State) : (setOutput line level s).period = s.period := rfl
@[simp] theorem setOutput_repeatExp (line : Word) (level : Level) (s : State) : (setOutput line level s).repeatExp = s.repeatExp := rfl
@[simp] theorem setOutput_repLimit (line : Word) (level : Level) (s : State) : (setOutput line level s).repLimit = s.repLimit := rfl
@[simp] theorem setOutput_result (line : Word) (level : Level) (s : State) : (setOutput line level s).result = s.result := rfl
@[simp] theorem setOutput_st (line : Word) (level : Level) (s : State) : (setOutput line level s).st = s.st := rfl
@[simp] theorem setOutput_k (line : Word) (level : Level) (s : State) : (setOutput line level s).k = s.k := rfl
@[simp] theorem setOutput_i (line : Word) (level : Level) (s : State) : (setOutput line level s).i = s.i := rfl
@[simp] theorem setOutput_h (line : Word) (level : Level) (s : State) : (setOutput line level s).h = s.h := rfl
@[simp] theorem setOutput_reps (line : Word) (level : Level) (s : State) : (setOutput line level s).reps = s.reps := rfl
@[simp] theorem setOutput_acc (line : Word) (level : Level) (s : State) : (setOutput line level s).acc = s.acc := rfl
@[simp] theorem setOutput_lPin (line : Word) (level : Level) (s : State) : (setOutput line level s).lPin = s.lPin := rfl
@[simp] theorem setOutput_lPeriod (line : Word) (level : Level) (s : State) : (setOutput line level s).lPeriod = s.lPeriod := rfl
@[simp] theorem setOutput_tmp (line : Word) (level : Level) (s : State) : (setOutput line level s).tmp = s.tmp := rfl
@[simp] theorem setOutput_hact (line : Word) (level : Level) (s : State) : (setOutput line level s).hact = s.hact := rfl
@[simp] theorem setOutput_dly (line : Word) (level : Level) (s : State) : (setOutput line level s).dly = s.dly := rfl
@[simp] theorem setOutput_out (line : Word) (level : Level) (s : State) : (setOutput line level s).out = level := rfl
@[simp] theorem setOutput_lines (line : Word) (level : Level) (s : State) : (setOutput line level s).lines = linesWrite line.toNat level s.lines := rfl
@[simp] theorem setOutput_now (line : Word) (level : Level) (s : State) : (setOutput line level s).now = s.now := rfl
@[simp] theorem setOutput_trace (line : Word) (level : Level) (s : State) : (setOutput line level s).trace = s.trace ++ [.set line level] := rfl
@[simp] theorem setOutput_readData (line : Word) (level : Level) (s : State) : (setOutput line level s).readData = s.readData := rfl
@[simp] theorem setOutput_held (line : Word) (level : Level) (s : State) : (setOutput line level s).held = s.held := rfl
@[simp] theorem setOutput_free (line : Word) (level : Level) (s : State) : (setOutput line level s).free = s.free := rfl
@[simp] theorem setOutput_agenda (line : Word) (level : Level) (s : State) : (setOutput line level s).agenda = s.agenda := rfl
@[simp] theorem setOutput_build (line : Word) (level : Level) (s : State) : (setOutput line level s).build = s.build := rfl

@[simp] theorem waitUs_pin (n : Nat) (s : State) : (waitUs n s).pin = s.pin := rfl
@[simp] theorem waitUs_code (n : Nat) (s : State) : (waitUs n s).code = s.code := rfl
@[simp] theorem waitUs_period (n : Nat) (s : State) : (waitUs n s).period = s.period := rfl
@[simp] theorem waitUs_repeatExp (n : Nat) (s : State) : (waitUs n s).repeatExp = s.repeatExp := rfl
@[simp] theorem waitUs_repLimit (n : Nat) (s : State) : (waitUs n s).repLimit = s.repLimit := rfl
@[simp] theorem waitUs_result (n : Nat) (s : State) : (waitUs n s).result = s.result := rfl
@[simp] theorem waitUs_st (n : Nat) (s : State) : (waitUs n s).st = s.st := rfl
@[simp] theorem waitUs_k (n : Nat) (s : State) : (waitUs n s).k = s.k := rfl
@[simp] theorem waitUs_i (n : Nat) (s : State) : (waitUs n s).i = s.i := rfl
@[simp] theorem waitUs_h (n : Nat) (s : State) : (waitUs n s).h = s.h := rfl
@[simp] theorem waitUs_reps (n : Nat) (s : State) : (waitUs n s).reps = s.reps := rfl
@[simp] theorem waitUs_acc (n : Nat) (s : State) : (waitUs n s).acc = s.acc := rfl
@[simp] theorem waitUs_lPin (n : Nat) (s : State) : (waitUs n s).lPin = s.lPin := rfl
@[simp] theorem waitUs_lPeriod (n : Nat) (s : State) : (waitUs n s).lPeriod = s.lPeriod := rfl
@[simp] theorem waitUs_tmp (n : Nat) (s : State) : (waitUs n s).tmp = s.tmp := rfl
@[simp] theorem waitUs_hact (n : Nat) (s : State) : (waitUs n s).hact = s.hact := rfl
@[simp] theorem waitUs_dly (n : Nat) (s : State) : (waitUs n s).dly = s.dly := rfl
@[simp] theorem waitUs_out (n : Nat) (s : State) : (waitUs n s).out = s.out := rfl
@[simp] theorem waitUs_lines (n : Nat) (s : State) : (waitUs n s).lines = s.lines := rfl
@[simp] theorem waitUs_now (n : Nat) (s : State) : (waitUs n s).now = s.now + n * Config.ticksPerUs := rfl
@[simp] theorem waitUs_trace (n : Nat) (s : State) : (waitUs n s).trace = s.trace ++ [.wait n] := rfl
@[simp] theorem waitUs_readData (n : Nat) (s : State) : (waitUs n s).readData = s.readData := rfl
@[simp] theorem waitUs_held (n : Nat) (s : State) : (waitUs n s).held = s.held := rfl
@[simp] theorem waitUs_free (n : Nat) (s : State) : (waitUs n s).free = s.free := rfl
@[simp] theorem waitUs_agenda (n : Nat) (s : State) : (waitUs n s).agenda = s.agenda := rfl
@[simp] theorem waitUs_build (n : Nat) (s : State) : (waitUs n s).build = s.build := rfl

@[simp] theorem holdEvent_pin (l : Level) (m : BitVec 5) (s : State) : (holdEvent l m s).pin = s.pin := rfl
@[simp] theorem holdEvent_code (l : Level) (m : BitVec 5) (s : State) : (holdEvent l m s).code = s.code := rfl
@[simp] theorem holdEvent_period (l : Level) (m : BitVec 5) (s : State) : (holdEvent l m s).period = s.period := rfl
@[simp] theorem holdEvent_repeatExp (l : Level) (m : BitVec 5) (s : State) : (holdEvent l m s).repeatExp = s.repeatExp := rfl
@[simp] theorem holdEvent_repLimit (l : Level) (m : BitVec 5) (s : State) : (holdEvent l m s).repLimit = s.repLimit := rfl
@[simp] theorem holdEvent_result (l : Level) (m : BitVec 5) (s : State) : (holdEvent l m s).result = s.result := rfl
@[simp] theorem holdEvent_st (l : Level) (m : BitVec 5) (s : State) : (holdEvent l m s).st = s.st := rfl
@[simp] theorem holdEvent_k (l : Level) (m : BitVec 5) (s : State) : (holdEvent l m s).k = s.k := rfl
@[simp] theorem holdEvent_i (l : Level) (m : BitVec 5) (s : State) : (holdEvent l m s).i = s.i := rfl
@[simp] theorem holdEvent_h (l : Level) (m : BitVec 5) (s : State) : (holdEvent l m s).h = s.h := rfl
@[simp] theorem holdEvent_reps (l : Level) (m : BitVec 5) (s : State) : (holdEvent l m s).reps = s.reps := rfl
@[simp] theorem holdEvent_acc (l : Level) (m : BitVec 5) (s : State) : (holdEvent l m s).acc = s.acc := rfl
@[simp] theorem holdEvent_lPin (l : Level) (m : BitVec 5) (s : State) : (holdEvent l m s).lPin = s.lPin := rfl
@[simp] theorem holdEvent_lPeriod (l : Level) (m : BitVec 5) (s : State) : (holdEvent l m s).lPeriod = s.lPeriod := rfl
@[simp] theorem holdEvent_tmp (l : Level) (m : BitVec 5) (s : State) : (holdEvent l m s).tmp = s.tmp := rfl
@[simp] theorem holdEvent_hact (l : Level) (m : BitVec 5) (s : State) : (holdEvent l m s).hact = s.hact := rfl
@[simp] theorem holdEvent_dly (l : Level) (m : BitVec 5) (s : State) : (holdEvent l m s).dly = 0#37 := rfl
@[simp] theorem holdEvent_out (l : Level) (m : BitVec 5) (s : State) : (holdEvent l m s).out = l := rfl
@[simp] theorem holdEvent_lines (l : Level) (m : BitVec 5) (s : State) : (holdEvent l m s).lines = linesWrite s.lPin.toNat l s.lines := rfl
@[simp] theorem holdEvent_now (l : Level) (m : BitVec 5) (s : State) : (holdEvent l m s).now = s.now + duration m s.lPeriod * Config.ticksPerUs := rfl
@[simp] theorem holdEvent_trace (l : Level) (m : BitVec 5) (s : State) : (holdEvent l m s).trace = s.trace ++ [.set s.lPin l] ++ [.wait (duration m s.lPeriod)] := rfl
@[simp] theorem holdEvent_readData (l : Level) (m : BitVec 5) (s : State) : (holdEvent l m s).readData = s.readData := rfl
@[simp] theorem holdEvent_held (l : Level) (m : BitVec 5) (s : State) : (holdEvent l m s).held = 0#37 := rfl
@[simp] theorem holdEvent_free (l : Level) (m : BitVec 5) (s : State) : (holdEvent l m s).free = s.free := rfl
@[simp] theorem holdEvent_agenda (l : Level) (m : BitVec 5) (s : State) : (holdEvent l m s).agenda = s.agenda := rfl
@[simp] theorem holdEvent_build (l : Level) (m : BitVec 5) (s : State) : (holdEvent l m s).build = s.build := rfl

@[simp] theorem holdStart_pin (l : Level) (m : BitVec 5) (s : State) : (holdStart l m s).pin = s.pin := rfl
@[simp] theorem holdStart_code (l : Level) (m : BitVec 5) (s : State) : (holdStart l m s).code = s.code := rfl
@[simp] theorem holdStart_period (l : Level) (m : BitVec 5) (s : State) : (holdStart l m s).period = s.period := rfl
@[simp] theorem holdStart_repeatExp (l : Level) (m : BitVec 5) (s : State) : (holdStart l m s).repeatExp = s.repeatExp := rfl
@[simp] theorem holdStart_repLimit (l : Level) (m : BitVec 5) (s : State) : (holdStart l m s).repLimit = s.repLimit := rfl
@[simp] theorem holdStart_result (l : Level) (m : BitVec 5) (s : State) : (holdStart l m s).result = s.result := rfl
@[simp] theorem holdStart_st (l : Level) (m : BitVec 5) (s : State) : (holdStart l m s).st = s.st := rfl
@[simp] theorem holdStart_k (l : Level) (m : BitVec 5) (s : State) : (holdStart l m s).k = s.k := rfl
@[simp] theorem holdStart_i (l : Level) (m : BitVec 5) (s : State) : (holdStart l m s).i = s.i := rfl
@[simp] theorem holdStart_h (l : Level) (m : BitVec 5) (s : State) : (holdStart l m s).h = s.h := rfl
@[simp] theorem holdStart_reps (l : Level) (m : BitVec 5) (s : State) : (holdStart l m s).reps = s.reps := rfl
@[simp] theorem holdStart_acc (l : Level) (m : BitVec 5) (s : State) : (holdStart l m s).acc = s.acc := rfl
@[simp] theorem holdStart_lPin (l : Level) (m : BitVec 5) (s : State) : (holdStart l m s).lPin = s.lPin := rfl
@[simp] theorem holdStart_lPeriod (l : Level) (m : BitVec 5) (s : State) : (holdStart l m s).lPeriod = s.lPeriod := rfl
@[simp] theorem holdStart_tmp (l : Level) (m : BitVec 5) (s : State) : (holdStart l m s).tmp = s.tmp := rfl
@[simp] theorem holdStart_hact (l : Level) (m : BitVec 5) (s : State) : (holdStart l m s).hact = true := rfl
@[simp] theorem holdStart_dly (l : Level) (m : BitVec 5) (s : State) : (holdStart l m s).dly = BitVec.ofNat 37 (duration m s.lPeriod * Config.ticksPerUs) := rfl
@[simp] theorem holdStart_out (l : Level) (m : BitVec 5) (s : State) : (holdStart l m s).out = l := rfl
@[simp] theorem holdStart_lines (l : Level) (m : BitVec 5) (s : State) : (holdStart l m s).lines = linesWrite s.lPin.toNat l s.lines := rfl
@[simp] theorem holdStart_now (l : Level) (m : BitVec 5) (s : State) : (holdStart l m s).now = s.now := rfl
@[simp] theorem holdStart_trace (l : Level) (m : BitVec 5) (s : State) : (holdStart l m s).trace = s.trace ++ [.set s.lPin l] := rfl
@[simp] theorem holdStart_readData (l : Level) (m : BitVec 5) (s : State) : (holdStart l m s).readData = s.readData := rfl
@[simp] theorem holdStart_held (l : Level) (m : BitVec 5) (s : State) : (holdStart l m s).held = 0#37 := rfl
@[simp] theorem holdStart_free (l : Level) (m : BitVec 5) (s : State) : (holdStart l m s).free = s.free := rfl
@[simp] theorem holdStart_agenda (l : Level) (m : BitVec 5) (s : State) : (holdStart l m s).agenda = s.agenda := rfl
@[simp] theorem holdStart_build (l : Level) (m : BitVec 5) (s : State) : (holdStart l m s).build = s.build := rfl

@[simp] theorem tickHold_pin (s : State) : (tickHold s).pin = s.pin := rfl
@[simp] theorem tickHold_code (s : State) : (tickHold s).code = s.code := rfl
@[simp] theorem tickHold_period (s : State) : (tickHold s).period = s.period := rfl
@[simp] theorem tickHold_repeatExp (s : State) : (tickHold s).repeatExp = s.repeatExp := rfl
@[simp] theorem tickHold_repLimit (s : State) : (tickHold s).repLimit = s.repLimit := rfl
@[simp] theorem tickHold_result (s : State) : (tickHold s).result = s.result := rfl
@[simp] theorem tickHold_st (s : State) : (tickHold s).st = s.st := rfl
@[simp] theorem tickHold_k (s : State) : (tickHold s).k = s.k := rfl
@[simp] theorem tickHold_i (s : State) : (tickHold s).i = s.i := rfl
@[simp] theorem tickHold_h (s : State) : (tickHold s).h = s.h := rfl
@[simp] theorem tickHold_reps (s : State) : (tickHold s).reps = s.reps := rfl
@[simp] theorem tickHold_acc (s : State) : (tickHold s).acc = s.acc := rfl
@[simp] theorem tickHold_lPin (s : State) : (tickHold s).lPin = s.lPin := rfl
@[simp] theorem tickHold_lPeriod (s : State) : (tickHold s).lPeriod = s.lPeriod := rfl
@[simp] theorem tickHold_tmp (s : State) : (tickHold s).tmp = s.tmp := rfl
@[simp] theorem tickHold_hact (s : State) : (tickHold s).hact = s.hact := rfl
@[simp] theorem tickHold_dly (s : State) : (tickHold s).dly = s.dly - 1#37 := rfl
@[simp] theorem tickHold_out (s : State) : (tickHold s).out = s.out := rfl
@[simp] theorem tickHold_lines (s : State) : (tickHold s).lines = s.lines := rfl
@[simp] theorem tickHold_now (s : State) : (tickHold s).now = s.now + 1 := rfl
@[simp] theorem tickHold_trace (s : State) : (tickHold s).trace = s.trace := rfl
@[simp] theorem tickHold_readData (s : State) : (tickHold s).readData = s.readData := rfl
@[simp] theorem tickHold_held (s : State) : (tickHold s).held = s.held + 1#37 := rfl
@[simp] theorem tickHold_free (s : State) : (tickHold s).free = s.free := rfl
@[simp] theorem tickHold_agenda (s : State) : (tickHold s).agenda = s.agenda := rfl
@[simp] theorem tickHold_build (s : State) : (tickHold s).build = s.build := rfl

@[simp] theorem emitHeld_pin (s : State) : (emitHeld s).pin = s.pin := rfl
@[simp] theorem emitHeld_code (s : State) : (emitHeld s).code = s.code := rfl
@[simp] theorem emitHeld_period (s : State) : (emitHeld s).period = s.period := rfl
@[simp] theorem emitHeld_repeatExp (s : State) : (emitHeld s).repeatExp = s.repeatExp := rfl
@[simp] theorem emitHeld_repLimit (s : State) : (emitHeld s).repLimit = s.repLimit := rfl
@[simp] theorem emitHeld_result (s : State) : (emitHeld s).result = s.result := rfl
@[simp] theorem emitHeld_st (s : State) : (emitHeld s).st = s.st := rfl
@[simp] theorem emitHeld_k (s : State) : (emitHeld s).k = s.k := rfl
@[simp] theorem emitHeld_i (s : State) : (emitHeld s).i = s.i := rfl
@[simp] theorem emitHeld_h (s : State) : (emitHeld s).h = s.h := rfl
@[simp] theorem emitHeld_reps (s : State) : (emitHeld s).reps = s.reps := rfl
@[simp] theorem emitHeld_acc (s : State) : (emitHeld s).acc = s.acc := rfl
@[simp] theorem emitHeld_lPin (s : State) : (emitHeld s).lPin = s.lPin := rfl
@[simp] theorem emitHeld_lPeriod (s : State) : (emitHeld s).lPeriod = s.lPeriod := rfl
@[simp] theorem emitHeld_tmp (s : State) : (emitHeld s).tmp = s.tmp := rfl
@[simp] theorem emitHeld_hact (s : State) : (emitHeld s).hact = s.hact := rfl
@[simp] theorem emitHeld_dly (s : State) : (emitHeld s).dly = s.dly := rfl
@[simp] theorem emitHeld_out (s : State) : (emitHeld s).out = s.out := rfl
@[simp] theorem emitHeld_lines (s : State) : (emitHeld s).lines = s.lines := rfl
@[simp] theorem emitHeld_now (s : State) : (emitHeld s).now = s.now := rfl
@[simp] theorem emitHeld_trace (s : State) : (emitHeld s).trace = s.trace ++ [.wait (s.held.toNat / Config.ticksPerUs)] := rfl
@[simp] theorem emitHeld_readData (s : State) : (emitHeld s).readData = s.readData := rfl
@[simp] theorem emitHeld_held (s : State) : (emitHeld s).held = s.held := rfl
@[simp] theorem emitHeld_free (s : State) : (emitHeld s).free = s.free := rfl
@[simp] theorem emitHeld_agenda (s : State) : (emitHeld s).agenda = s.agenda := rfl
@[simp] theorem emitHeld_build (s : State) : (emitHeld s).build = s.build := rfl

@[simp] theorem forceLow_pin (s : State) : (forceLow s).pin = s.pin := rfl
@[simp] theorem forceLow_code (s : State) : (forceLow s).code = s.code := rfl
@[simp] theorem forceLow_period (s : State) : (forceLow s).period = s.period := rfl
@[simp] theorem forceLow_repeatExp (s : State) : (forceLow s).repeatExp = s.repeatExp := rfl
@[simp] theorem forceLow_repLimit (s : State) : (forceLow s).repLimit = s.repLimit := rfl
@[simp] theorem forceLow_result (s : State) : (forceLow s).result = s.result := rfl
@[simp] theorem forceLow_st (s : State) : (forceLow s).st = s.st := rfl
@[simp] theorem forceLow_k (s : State) : (forceLow s).k = s.k := rfl
@[simp] theorem forceLow_i (s : State) : (forceLow s).i = s.i := rfl
@[simp] theorem forceLow_h (s : State) : (forceLow s).h = s.h := rfl
@[simp] theorem forceLow_reps (s : State) : (forceLow s).reps = s.reps := rfl
@[simp] theorem forceLow_acc (s : State) : (forceLow s).acc = s.acc := rfl
@[simp] theorem forceLow_lPin (s : State) : (forceLow s).lPin = s.lPin := rfl
@[simp] theorem forceLow_lPeriod (s : State) : (forceLow s).lPeriod = s.lPeriod := rfl
@[simp] theorem forceLow_tmp (s : State) : (forceLow s).tmp = s.tmp := rfl
@[simp] theorem forceLow_hact (s : State) : (forceLow s).hact = s.hact := rfl
@[simp] theorem forceLow_dly (s : State) : (forceLow s).dly = s.dly := rfl
@[simp] theorem forceLow_out (s : State) : (forceLow s).out = false := rfl
@[simp] theorem forceLow_lines (s : State) : (forceLow s).lines = linesWrite s.lPin.toNat false s.lines := rfl
@[simp] theorem forceLow_now (s : State) : (forceLow s).now = s.now := rfl
@[simp] theorem forceLow_trace (s : State) : (forceLow s).trace = s.trace ++ [.set s.lPin false] := rfl
@[simp] theorem forceLow_readData (s : State) : (forceLow s).readData = s.readData := rfl
@[simp] theorem forceLow_held (s : State) : (forceLow s).held = s.held := rfl
@[simp] theorem forceLow_free (s : State) : (forceLow s).free = s.free := rfl
@[simp] theorem forceLow_agenda (s : State) : (forceLow s).agenda = s.agenda := rfl
@[simp] theorem forceLow_build (s : State) : (forceLow s).build = s.build := rfl

@[simp] theorem raiseMalformed_pin (s : State) : (raiseMalformed s).pin = s.pin := rfl
@[simp] theorem raiseMalformed_code (s : State) : (raiseMalformed s).code = s.code := rfl
@[simp] theorem raiseMalformed_period (s : State) : (raiseMalformed s).period = s.period := rfl
@[simp] theorem raiseMalformed_repeatExp (s : State) : (raiseMalformed s).repeatExp = s.repeatExp := rfl
@[simp] theorem raiseMalformed_repLimit (s : State) : (raiseMalformed s).repLimit = s.repLimit := rfl
@[simp] theorem raiseMalformed_result (s : State) : (raiseMalformed s).result = .malformedRequest := rfl
@[simp] theorem raiseMalformed_st (s : State) : (raiseMalformed s).st = .idle := rfl
@[simp] theorem raiseMalformed_k (s : State) : (raiseMalformed s).k = s.k := rfl
@[simp] theorem raiseMalformed_i (s : State) : (raiseMalformed s).i = s.i := rfl
@[simp] theorem raiseMalformed_h (s : State) : (raiseMalformed s).h = s.h := rfl
@[simp] theorem raiseMalformed_reps (s : State) : (raiseMalformed s).reps = s.reps := rfl
@[simp] theorem raiseMalformed_acc (s : State) : (raiseMalformed s).acc = s.acc := rfl
@[simp] theorem raiseMalformed_lPin (s : State) : (raiseMalformed s).lPin = s.lPin := rfl
@[simp] theorem raiseMalformed_lPeriod (s : State) : (raiseMalformed s).lPeriod = s.lPeriod := rfl
@[simp] theorem raiseMalformed_tmp (s : State) : (raiseMalformed s).tmp = s.tmp := rfl
@[simp] theorem raiseMalformed_hact (s : State) : (raiseMalformed s).hact = s.hact := rfl
@[simp] theorem raiseMalformed_dly (s : State) : (raiseMalformed s).dly = s.dly := rfl
@[simp] theorem raiseMalformed_out (s : State) : (raiseMalformed s).out = false := rfl
@[simp] theorem raiseMalformed_lines (s : State) : (raiseMalformed s).lines = linesWrite s.lPin.toNat false s.lines := rfl
@[simp] theorem raiseMalformed_now (s : State) : (raiseMalformed s).now = s.now := rfl
@[simp] theorem raiseMalformed_trace (s : State) : (raiseMalformed s).trace = s.trace ++ [.set s.lPin false] := rfl
@[simp] theorem raiseMalformed_readData (s : State) : (raiseMalformed s).readData = s.readData := rfl
@[simp] theorem raiseMalformed_held (s : State) : (raiseMalformed s).held = s.held := rfl
@[simp] theorem raiseMalformed_free (s : State) : (raiseMalformed s).free = s.free := rfl
@[simp] theorem raiseMalformed_agenda (s : State) : (raiseMalformed s).agenda = s.agenda := rfl
@[simp] theorem raiseMalformed_build (s : State) : (raiseMalformed s).build = s.build := rfl

@[simp] theorem encodeInto_pin (code : Word) (s : State) : (encodeInto code s).pin = s.pin := rfl
@[simp] theorem encodeInto_code (code : Word) (s : State) : (encodeInto code s).code = s.code := rfl
@[simp] theorem encodeInto_period (code : Word) (s : State) : (encodeInto code s).period = s.period := rfl
@[simp] theorem encodeInto_repeatExp (code : Word) (s : State) : (encodeInto code s).repeatExp = s.repeatExp := rfl
@[simp] theorem encodeInto_repLimit (code : Word) (s : State) : (encodeInto code s).repLimit = s.repLimit := rfl
@[simp] theorem encodeInto_result (code : Word) (s : State) : (encodeInto code s).result = s.result := rfl
@[simp] theorem encodeInto_st (code : Word) (s : State) : (encodeInto code s).st = s.st := rfl
@[simp] theorem encodeInto_k (code : Word) (s : State) : (encodeInto code s).k = s.k := rfl
@[simp] theorem encodeInto_i (code : Word) (s : State) : (encodeInto code s).i = s.i := rfl
@[simp] theorem encodeInto_h (code : Word) (s : State) : (encodeInto code s).h = s.h := rfl
@[simp] theorem encodeInto_reps (code : Word) (s : State) : (encodeInto code s).reps = s.reps := rfl
@[simp] theorem encodeInto_acc (code : Word) (s : State) : (encodeInto code s).acc = (encTemps code s.tmp.t).a := rfl
@[simp] theorem encodeInto_lPin (code : Word) (s : State) : (encodeInto code s).lPin = s.lPin := rfl
@[simp] theorem encodeInto_lPeriod (code : Word) (s : State) : (encodeInto code s).lPeriod = s.lPeriod := rfl
@[simp] theorem encodeInto_tmp (code : Word) (s : State) : (encodeInto code s).tmp = encTemps code s.tmp.t := rfl
@[simp] theorem encodeInto_hact (code : Word) (s : State) : (encodeInto code s).hact = s.hact := rfl
@[simp] theorem encodeInto_dly (code : Word) (s : State) : (encodeInto code s).dly = s.dly := rfl
@[simp] theorem encodeInto_out (code : Word) (s : State) : (encodeInto code s).out = s.out := rfl
@[simp] theorem encodeInto_lines (code : Word) (s : State) : (encodeInto code s).lines = s.lines := rfl
@[simp] theorem encodeInto_now (code : Word) (s : State) : (encodeInto code s).now = s.now := rfl
@[simp] theorem encodeInto_trace (code : Word) (s : State) : (encodeInto code s).trace = s.trace := rfl
@[simp] theorem encodeInto_readData (code : Word) (s : State) : (encodeInto code s).readData = s.readData := rfl
@[simp] theorem encodeInto_held (code : Word) (s : State) : (encodeInto code s).held = s.held := rfl
@[simp] theorem encodeInto_free (code : Word) (s : State) : (encodeInto code s).free = s.free := rfl
@[simp] theorem encodeInto_agenda (code : Word) (s : State) : (encodeInto code s).agenda = s.agenda := rfl
@[simp] theorem encodeInto_build (code : Word) (s : State) : (encodeInto code s).build = s.build := rfl

@[simp] theorem sampleRequest_pin (s : State) : (sampleRequest s).pin = s.pin := rfl
@[simp] theorem sampleRequest_code (s : State) : (sampleRequest s).code = s.code := rfl
@[simp] theorem sampleRequest_period (s : State) : (sampleRequest s).period = s.period := rfl
@[simp] theorem sampleRequest_repeatExp (s : State) : (sampleRequest s).repeatExp = s.repeatExp := rfl
@[simp] theorem sampleRequest_repLimit (s : State) : (sampleRequest s).repLimit = s.repLimit := rfl
@[simp] theorem sampleRequest_result (s : State) : (sampleRequest s).result = .none := rfl
@[simp] theorem sampleRequest_st (s : State) : (sampleRequest s).st = s.st := rfl
@[simp] theorem sampleRequest_k (s : State) : (sampleRequest s).k = s.k := rfl
@[simp] theorem sampleRequest_i (s : State) : (sampleRequest s).i = s.i := rfl
@[simp] theorem sampleRequest_h (s : State) : (sampleRequest s).h = s.h := rfl
@[simp] theorem sampleRequest_reps (s : State) : (sampleRequest s).reps = s.reps := rfl
@[simp] theorem sampleRequest_acc (s : State) : (sampleRequest s).acc = s.acc := rfl
@[simp] theorem sampleRequest_lPin (s : State) : (sampleRequest s).lPin = s.pin := rfl
@[simp] theorem sampleRequest_lPeriod (s : State) : (sampleRequest s).lPeriod = s.period := rfl
@[simp] theorem sampleRequest_tmp (s : State) : (sampleRequest s).tmp = s.tmp := rfl
@[simp] theorem sampleRequest_hact (s : State) : (sampleRequest s).hact = s.hact := rfl
@[simp] theorem sampleRequest_dly (s : State) : (sampleRequest s).dly = s.dly := rfl
@[simp] theorem sampleRequest_out (s : State) : (sampleRequest s).out = s.out := rfl
@[simp] theorem sampleRequest_lines (s : State) : (sampleRequest s).lines = s.lines := rfl
@[simp] theorem sampleRequest_now (s : State) : (sampleRequest s).now = s.now := rfl
@[simp] theorem sampleRequest_trace (s : State) : (sampleRequest s).trace = s.trace := rfl
@[simp] theorem sampleRequest_readData (s : State) : (sampleRequest s).readData = s.readData := rfl
@[simp] theorem sampleRequest_held (s : State) : (sampleRequest s).held = s.held := rfl
@[simp] theorem sampleRequest_free (s : State) : (sampleRequest s).free = s.free := rfl
@[simp] theorem sampleRequest_agenda (s : State) : (sampleRequest s).agenda = s.agenda := rfl
@[simp] theorem sampleRequest_build (s : State) : (sampleRequest s).build = s.build := rfl

@[simp] theorem writeRequest_pin (r : Request) (s : State) : (writeRequest r s).pin = r.pin := rfl
@[simp] theorem writeRequest_code (r : Request) (s : State) : (writeRequest r s).code = r.code := rfl
@[simp] theorem writeRequest_period (r : Request) (s : State) : (writeRequest r s).period = r.period := rfl
@[simp] theorem writeRequest_repeatExp (r : Request) (s : State) : (writeRequest r s).repeatExp = r.rep := rfl
@[simp] theorem writeRequest_repLimit (r : Request) (s : State) : (writeRequest r s).repLimit = s.repLimit := rfl
@[simp] theorem writeRequest_result (r : Request) (s : State) : (writeRequest r s).result = s.result := rfl
@[simp] theorem writeRequest_st (r : Request) (s : State) : (writeRequest r s).st = s.st := rfl
@[simp] theorem writeRequest_k (r : Request) (s : State) : (writeRequest r s).k = s.k := rfl
@[simp] theorem writeRequest_i (r : Request) (s : State) : (writeRequest r s).i = s.i := rfl
@[simp] theorem writeRequest_h (r : Request) (s : State) : (writeRequest r s).h = s.h := rfl
@[simp] theorem writeRequest_reps (r : Request) (s : State) : (writeRequest r s).reps = s.reps := rfl
@[simp] theorem writeRequest_acc (r : Request) (s : State) : (writeRequest r s).acc = s.acc := rfl
@[simp] theorem writeRequest_lPin (r : Request) (s : State) : (writeRequest r s).lPin = s.lPin := rfl
@[simp] theorem writeRequest_lPeriod (r : Request) (s : State) : (writeRequest r s).lPeriod = s.lPeriod := rfl
@[simp] theorem writeRequest_tmp (r : Request) (s : State) : (writeRequest r s).tmp = s.tmp := rfl
@[simp] theorem writeRequest_hact (r : Request) (s : State) : (writeRequest r s).hact = s.hact := rfl
@[simp] theorem writeRequest_dly (r : Request) (s : State) : (writeRequest r s).dly = s.dly := rfl
@[simp] theorem writeRequest_out (r : Request) (s : State) : (writeRequest r s).out = s.out := rfl
@[simp] theorem writeRequest_lines (r : Request) (s : State) : (writeRequest r s).lines = s.lines := rfl
@[simp] theorem writeRequest_now (r : Request) (s : State) : (writeRequest r s).now = s.now := rfl
@[simp] theorem writeRequest_trace (r : Request) (s : State) : (writeRequest r s).trace = s.trace := rfl
@[simp] theorem writeRequest_readData (r : Request) (s : State) : (writeRequest r s).readData = s.readData := rfl
@[simp] theorem writeRequest_held (r : Request) (s : State) : (writeRequest r s).held = s.held := rfl
@[simp] theorem writeRequest_free (r : Request) (s : State) : (writeRequest r s).free = s.free := rfl
@[simp] theorem writeRequest_agenda (r : Request) (s : State) : (writeRequest r s).agenda = s.agenda := rfl
@[simp] theorem writeRequest_build (r : Request) (s : State) : (writeRequest r s).build = s.build := rfl

@[simp] theorem goNext_pin (s : State) : (goNext s).pin = s.pin := rfl
@[simp] theorem goNext_code (s : State) : (goNext s).code = s.code := rfl
@[simp] theorem goNext_period (s : State) : (goNext s).period = s.period := rfl
@[simp] theorem goNext_repeatExp (s : State) : (goNext s).repeatExp = s.repeatExp := rfl
@[simp] theorem goNext_repLimit (s : State) : (goNext s).repLimit = s.repLimit := rfl
@[simp] theorem goNext_result (s : State) : (goNext s).result = s.result := rfl
@[simp] theorem goNext_st (s : State) : (goNext s).st = .repeating := rfl
@[simp] theorem goNext_k (s : State) : (goNext s).k = s.k + 1#7 := rfl
@[simp] theorem goNext_i (s : State) : (goNext s).i = s.i := rfl
@[simp] theorem goNext_h (s : State) : (goNext s).h = s.h := rfl
@[simp] theorem goNext_reps (s : State) : (goNext s).reps = s.reps := rfl
@[simp] theorem goNext_acc (s : State) : (goNext s).acc = s.acc := rfl
@[simp] theorem goNext_lPin (s : State) : (goNext s).lPin = s.lPin := rfl
@[simp] theorem goNext_lPeriod (s : State) : (goNext s).lPeriod = s.lPeriod := rfl
@[simp] theorem goNext_tmp (s : State) : (goNext s).tmp = s.tmp := rfl
@[simp] theorem goNext_hact (s : State) : (goNext s).hact = s.hact := rfl
@[simp] theorem goNext_dly (s : State) : (goNext s).dly = s.dly := rfl
@[simp] theorem goNext_out (s : State) : (goNext s).out = s.out := rfl
@[simp] theorem goNext_lines (s : State) : (goNext s).lines = s.lines := rfl
@[simp] theorem goNext_now (s : State) : (goNext s).now = s.now := rfl
@[simp] theorem goNext_trace (s : State) : (goNext s).trace = s.trace := rfl
@[simp] theorem goNext_readData (s : State) : (goNext s).readData = s.readData := rfl
@[simp] theorem goNext_held (s : State) : (goNext s).held = s.held := rfl
@[simp] theorem goNext_free (s : State) : (goNext s).free = s.free := rfl
@[simp] theorem goNext_agenda (s : State) : (goNext s).agenda = s.agenda := rfl
@[simp] theorem goNext_build (s : State) : (goNext s).build = s.build := rfl

@[simp] theorem finishRequest_pin (s : State) : (finishRequest s).pin = s.pin := rfl
@[simp] theorem finishRequest_code (s : State) : (finishRequest s).code = s.code := rfl
@[simp] theorem finishRequest_period (s : State) : (finishRequest s).period = s.period := rfl
@[simp] theorem finishRequest_repeatExp (s : State) : (finishRequest s).repeatExp = s.repeatExp := rfl
@[simp] theorem finishRequest_repLimit (s : State) : (finishRequest s).repLimit = s.repLimit := rfl
@[simp] theorem finishRequest_result (s : State) : (finishRequest s).result = .ok := rfl
@[simp] theorem finishRequest_st (s : State) : (finishRequest s).st = .idle := rfl
@[simp] theorem finishRequest_k (s : State) : (finishRequest s).k = s.k := rfl
@[simp] theorem finishRequest_i (s : State) : (finishRequest s).i = s.i := rfl
@[simp] theorem finishRequest_h (s : State) : (finishRequest s).h = s.h := rfl
@[simp] theorem finishRequest_reps (s : State) : (finishRequest s).reps = s.reps := rfl
@[simp] theorem finishRequest_acc (s : State) : (finishRequest s).acc = s.acc := rfl
@[simp] theorem finishRequest_lPin (s : State) : (finishRequest s).lPin = s.lPin := rfl
@[simp] theorem finishRequest_lPeriod (s : State) : (finishRequest s).lPeriod = s.lPeriod := rfl
@[simp] theorem finishRequest_tmp (s : State) : (finishRequest s).tmp = s.tmp := rfl
@[simp] theorem finishRequest_hact (s : State) : (finishRequest s).hact = s.hact := rfl
@[simp] theorem finishRequest_dly (s : State) : (finishRequest s).dly = s.dly := rfl
@[simp] theorem finishRequest_out (s : State) : (finishRequest s).out = false := rfl
@[simp] theorem finishRequest_lines (s : State) : (finishRequest s).lines = linesWrite s.lPin.toNat false s.lines := rfl
@[simp] theorem finishRequest_now (s : State) : (finishRequest s).now = s.now := rfl
@[simp] theorem finishRequest_trace (s : State) : (finishRequest s).trace = s.trace ++ [.set s.lPin false] := rfl
@[simp] theorem finishRequest_readData (s : State) : (finishRequest s).readData = s.readData := rfl
@[simp] theorem finishRequest_held (s : State) : (finishRequest s).held = s.held := rfl
@[simp] theorem finishRequest_free (s : State) : (finishRequest s).free = s.free := rfl
@[simp] theorem finishRequest_agenda (s : State) : (finishRequest s).agenda = s.agenda := rfl
@[simp] theorem finishRequest_build (s : State) : (finishRequest s).build = s.build := rfl

@[simp] theorem acceptRequest_pin (s : State) : (acceptRequest s).pin = s.pin := rfl
@[simp] theorem acceptRequest_code (s : State) : (acceptRequest s).code = s.code := rfl
@[simp] theorem acceptRequest_period (s : State) : (acceptRequest s).period = s.period := rfl
@[simp] theorem acceptRequest_repeatExp (s : State) : (acceptRequest s).repeatExp = s.repeatExp := rfl
@[simp] theorem acceptRequest_repLimit (s : State) : (acceptRequest s).repLimit = s.repLimit := rfl
@[simp] theorem acceptRequest_result (s : State) : (acceptRequest s).result = s.result := rfl
@[simp] theorem acceptRequest_st (s : State) : (acceptRequest s).st = .repeating := rfl
@[simp] theorem acceptRequest_k (s : State) : (acceptRequest s).k = 0#7 := rfl
@[simp] theorem acceptRequest_i (s : State) : (acceptRequest s).i = s.i := rfl
@[simp] theorem acceptRequest_h (s : State) : (acceptRequest s).h = s.h := rfl
@[simp] theorem acceptRequest_reps (s : State) : (acceptRequest s).reps = BitVec.ofNat 8 (expandedCount (repeatExponent s.repeatExp)) := rfl
@[simp] theorem acceptRequest_acc (s : State) : (acceptRequest s).acc = (encTemps s.code s.tmp.t).a := rfl
@[simp] theorem acceptRequest_lPin (s : State) : (acceptRequest s).lPin = s.lPin := rfl
@[simp] theorem acceptRequest_lPeriod (s : State) : (acceptRequest s).lPeriod = s.lPeriod := rfl
@[simp] theorem acceptRequest_tmp (s : State) : (acceptRequest s).tmp = encTemps s.code s.tmp.t := rfl
@[simp] theorem acceptRequest_hact (s : State) : (acceptRequest s).hact = s.hact := rfl
@[simp] theorem acceptRequest_dly (s : State) : (acceptRequest s).dly = s.dly := rfl
@[simp] theorem acceptRequest_out (s : State) : (acceptRequest s).out = false := rfl
@[simp] theorem acceptRequest_lines (s : State) : (acceptRequest s).lines = linesWrite s.lPin.toNat false s.lines := rfl
@[simp] theorem acceptRequest_now (s : State) : (acceptRequest s).now = s.now := rfl
@[simp] theorem acceptRequest_trace (s : State) : (acceptRequest s).trace = s.trace ++ [.set s.lPin false] := rfl
@[simp] theorem acceptRequest_readData (s : State) : (acceptRequest s).readData = s.readData := rfl
@[simp] theorem acceptRequest_held (s : State) : (acceptRequest s).held = s.held := rfl
@[simp] theorem acceptRequest_free (s : State) : (acceptRequest s).free = s.free := rfl
@[simp] theorem acceptRequest_agenda (s : State) : (acceptRequest s).agenda = s.agenda := rfl
@[simp] theorem acceptRequest_build (s : State) : (acceptRequest s).build = s.build := rfl

@[simp] theorem hostRead_pin (n : BitVec 3) (s : State) : (hostRead n s).pin = s.pin := rfl
@[simp] theorem hostRead_code (n : BitVec 3) (s : State) : (hostRead n s).code = s.code := rfl
@[simp] theorem hostRead_period (n : BitVec 3) (s : State) : (hostRead n s).period = s.period := rfl
@[simp] theorem hostRead_repeatExp (n : BitVec 3) (s : State) : (hostRead n s).repeatExp = s.repeatExp := rfl
@[simp] theorem hostRead_repLimit (n : BitVec 3) (s : State) : (hostRead n s).repLimit = s.repLimit := rfl
@[simp] theorem hostRead_result (n : BitVec 3) (s : State) : (hostRead n s).result = s.result := rfl
@[simp] theorem hostRead_st (n : BitVec 3) (s : State) : (hostRead n s).st = s.st := rfl
@[simp] theorem hostRead_k (n : BitVec 3) (s : State) : (hostRead n s).k = s.k := rfl
@[simp] theorem hostRead_i (n : BitVec 3) (s : State) : (hostRead n s).i = s.i := rfl
@[simp] theorem hostRead_h (n : BitVec 3) (s : State) : (hostRead n s).h = s.h := rfl
@[simp] theorem hostRead_reps (n : BitVec 3) (s : State) : (hostRead n s).reps = s.reps := rfl
@[simp] theorem hostRead_acc (n : BitVec 3) (s : State) : (hostRead n s).acc = s.acc := rfl
@[simp] theorem hostRead_lPin (n : BitVec 3) (s : State) : (hostRead n s).lPin = s.lPin := rfl
@[simp] theorem hostRead_lPeriod (n : BitVec 3) (s : State) : (hostRead n s).lPeriod = s.lPeriod := rfl
@[simp] theorem hostRead_tmp (n : BitVec 3) (s : State) : (hostRead n s).tmp = s.tmp := rfl
@[simp] theorem hostRead_hact (n : BitVec 3) (s : State) : (hostRead n s).hact = s.hact := rfl
@[simp] theorem hostRead_dly (n : BitVec 3) (s : State) : (hostRead n s).dly = s.dly := rfl
@[simp] theorem hostRead_out (n : BitVec 3) (s : State) : (hostRead n s).out = s.out := rfl
@[simp] theorem hostRead_lines (n : BitVec 3) (s : State) : (hostRead n s).lines = s.lines := rfl
@[simp] theorem hostRead_now (n : BitVec 3) (s : State) : (hostRead n s).now = s.now := rfl
@[simp] theorem hostRead_trace (n : BitVec 3) (s : State) : (hostRead n s).trace = s.trace := rfl
@[simp] theorem hostRead_readData (n : BitVec 3) (s : State) : (hostRead n s).readData = hostReadValue n s := rfl
@[simp] theorem hostRead_held (n : BitVec 3) (s : State) : (hostRead n s).held = s.held := rfl
@[simp] theorem hostRead_free (n : BitVec 3) (s : State) : (hostRead n s).free = s.free := rfl
@[simp] theorem hostRead_agenda (n : BitVec 3) (s : State) : (hostRead n s).agenda = s.agenda := rfl
@[simp] theorem hostRead_build (n : BitVec 3) (s : State) : (hostRead n s).build = s.build := rfl

@[simp] theorem readTrit_pin (s : State) : (readTrit s).pin = s.pin := rfl
@[simp] theorem readTrit_code (s : State) : (readTrit s).code = s.code := rfl
@[simp] theorem readTrit_period (s : State) : (readTrit s).period = s.period := rfl
@[simp] theorem readTrit_repeatExp (s : State) : (readTrit s).repeatExp = s.repeatExp := rfl
@[simp] theorem readTrit_repLimit (s : State) : (readTrit s).repLimit = s.repLimit := rfl
@[simp] theorem readTrit_result (s : State) : (readTrit s).result = s.result := rfl
@[simp] theorem readTrit_st (s : State) : (readTrit s).st = s.st := rfl
@[simp] theorem readTrit_k (s : State) : (readTrit s).k = s.k := rfl
@[simp] theorem readTrit_i (s : State) : (readTrit s).i = s.i := rfl
@[simp] theorem readTrit_h (s : State) : (readTrit s).h = s.h := rfl
@[simp] theorem readTrit_reps (s : State) : (readTrit s).reps = s.reps := rfl
@[simp] theorem readTrit_acc (s : State) : (readTrit s).acc = s.acc := rfl
@[simp] theorem readTrit_lPin (s : State) : (readTrit s).lPin = s.lPin := rfl
@[simp] theorem readTrit_lPeriod (s : State) : (readTrit s).lPeriod = s.lPeriod := rfl
@[simp] theorem readTrit_tmp (s : State) : (readTrit s).tmp = { s.tmp with t := tritsel s.build.txOrder s.acc s.i } := rfl
@[simp] theorem readTrit_hact (s : State) : (readTrit s).hact = s.hact := rfl
@[simp] theorem readTrit_dly (s : State) : (readTrit s).dly = s.dly := rfl
@[simp] theorem readTrit_out (s : State) : (readTrit s).out = s.out := rfl
@[simp] theorem readTrit_lines (s : State) : (readTrit s).lines = s.lines := rfl
@[simp] theorem readTrit_now (s : State) : (readTrit s).now = s.now := rfl
@[simp] theorem readTrit_trace (s : State) : (readTrit s).trace = s.trace := rfl
@[simp] theorem readTrit_readData (s : State) : (readTrit s).readData = s.readData := rfl
@[simp] theorem readTrit_held (s : State) : (readTrit s).held = s.held := rfl
@[simp] theorem readTrit_free (s : State) : (readTrit s).free = s.free := rfl
@[simp] theorem readTrit_agenda (s : State) : (readTrit s).agenda = s.agenda := rfl
@[simp] theorem readTrit_build (s : State) : (readTrit s).build = s.build := rfl

@[simp] theorem partOfHold_pin (hold : Level × BitVec 5) (n : Nat) (s : State) : (partOfHold hold n s).pin = s.pin := rfl
@[simp] theorem partOfHold_code (hold : Level × BitVec 5) (n : Nat) (s : State) : (partOfHold hold n s).code = s.code := rfl
@[simp] theorem partOfHold_period (hold : Level × BitVec 5) (n : Nat) (s : State) : (partOfHold hold n s).period = s.period := rfl
@[simp] theorem partOfHold_repeatExp (hold : Level × BitVec 5) (n : Nat) (s : State) : (partOfHold hold n s).repeatExp = s.repeatExp := rfl
@[simp] theorem partOfHold_repLimit (hold : Level × BitVec 5) (n : Nat) (s : State) : (partOfHold hold n s).repLimit = s.repLimit := rfl
@[simp] theorem partOfHold_result (hold : Level × BitVec 5) (n : Nat) (s : State) : (partOfHold hold n s).result = s.result := rfl
@[simp] theorem partOfHold_st (hold : Level × BitVec 5) (n : Nat) (s : State) : (partOfHold hold n s).st = s.st := rfl
@[simp] theorem partOfHold_k (hold : Level × BitVec 5) (n : Nat) (s : State) : (partOfHold hold n s).k = s.k := rfl
@[simp] theorem partOfHold_i (hold : Level × BitVec 5) (n : Nat) (s : State) : (partOfHold hold n s).i = s.i := rfl
@[simp] theorem partOfHold_h (hold : Level × BitVec 5) (n : Nat) (s : State) : (partOfHold hold n s).h = s.h := rfl
@[simp] theorem partOfHold_reps (hold : Level × BitVec 5) (n : Nat) (s : State) : (partOfHold hold n s).reps = s.reps := rfl
@[simp] theorem partOfHold_acc (hold : Level × BitVec 5) (n : Nat) (s : State) : (partOfHold hold n s).acc = s.acc := rfl
@[simp] theorem partOfHold_lPin (hold : Level × BitVec 5) (n : Nat) (s : State) : (partOfHold hold n s).lPin = s.lPin := rfl
@[simp] theorem partOfHold_lPeriod (hold : Level × BitVec 5) (n : Nat) (s : State) : (partOfHold hold n s).lPeriod = s.lPeriod := rfl
@[simp] theorem partOfHold_tmp (hold : Level × BitVec 5) (n : Nat) (s : State) : (partOfHold hold n s).tmp = s.tmp := rfl
@[simp] theorem partOfHold_hact (hold : Level × BitVec 5) (n : Nat) (s : State) : (partOfHold hold n s).hact = true := rfl
@[simp] theorem partOfHold_dly (hold : Level × BitVec 5) (n : Nat) (s : State) : (partOfHold hold n s).dly = BitVec.ofNat 37 (duration hold.2 s.lPeriod * Config.ticksPerUs - n) := rfl
@[simp] theorem partOfHold_out (hold : Level × BitVec 5) (n : Nat) (s : State) : (partOfHold hold n s).out = hold.1 := rfl
@[simp] theorem partOfHold_lines (hold : Level × BitVec 5) (n : Nat) (s : State) : (partOfHold hold n s).lines = linesWrite s.lPin.toNat hold.1 s.lines := rfl
@[simp] theorem partOfHold_now (hold : Level × BitVec 5) (n : Nat) (s : State) : (partOfHold hold n s).now = s.now + n := rfl
@[simp] theorem partOfHold_trace (hold : Level × BitVec 5) (n : Nat) (s : State) : (partOfHold hold n s).trace = s.trace ++ [.set s.lPin hold.1] := rfl
@[simp] theorem partOfHold_readData (hold : Level × BitVec 5) (n : Nat) (s : State) : (partOfHold hold n s).readData = s.readData := rfl
@[simp] theorem partOfHold_held (hold : Level × BitVec 5) (n : Nat) (s : State) : (partOfHold hold n s).held = BitVec.ofNat 37 n := rfl
@[simp] theorem partOfHold_free (hold : Level × BitVec 5) (n : Nat) (s : State) : (partOfHold hold n s).free = s.free := rfl
@[simp] theorem partOfHold_agenda (hold : Level × BitVec 5) (n : Nat) (s : State) : (partOfHold hold n s).agenda = s.agenda := rfl
@[simp] theorem partOfHold_build (hold : Level × BitVec 5) (n : Nat) (s : State) : (partOfHold hold n s).build = s.build := rfl

@[simp] theorem resetRegisters_pin (s : State) : (resetRegisters s).pin = Config.fallbackPin := rfl
@[simp] theorem resetRegisters_code (s : State) : (resetRegisters s).code = Config.fallbackCode := rfl
@[simp] theorem resetRegisters_period (s : State) : (resetRegisters s).period = Config.fallbackPeriod := rfl
@[simp] theorem resetRegisters_repeatExp (s : State) : (resetRegisters s).repeatExp = Config.fallbackRepeat := rfl
@[simp] theorem resetRegisters_repLimit (s : State) : (resetRegisters s).repLimit = Config.repLimitReset := rfl
@[simp] theorem resetRegisters_result (s : State) : (resetRegisters s).result = .none := rfl
@[simp] theorem resetRegisters_st (s : State) : (resetRegisters s).st = .idle := rfl
@[simp] theorem resetRegisters_k (s : State) : (resetRegisters s).k = Config.resetK s.free := rfl
@[simp] theorem resetRegisters_i (s : State) : (resetRegisters s).i = Config.resetI s.free := rfl
@[simp] theorem resetRegisters_h (s : State) : (resetRegisters s).h = Config.resetH s.free := rfl
@[simp] theorem resetRegisters_reps (s : State) : (resetRegisters s).reps = Config.resetReps s.free := rfl
@[simp] theorem resetRegisters_acc (s : State) : (resetRegisters s).acc = Config.resetAcc s.free := rfl
@[simp] theorem resetRegisters_lPin (s : State) : (resetRegisters s).lPin = Config.resetLPin s.free := rfl
@[simp] theorem resetRegisters_lPeriod (s : State) : (resetRegisters s).lPeriod = Config.resetLPeriod s.free := rfl
@[simp] theorem resetRegisters_tmp (s : State) : (resetRegisters s).tmp = s.tmp := rfl
@[simp] theorem resetRegisters_hact (s : State) : (resetRegisters s).hact = false := rfl
@[simp] theorem resetRegisters_dly (s : State) : (resetRegisters s).dly = Config.resetDly s.free := rfl
@[simp] theorem resetRegisters_out (s : State) : (resetRegisters s).out = false := rfl
@[simp] theorem resetRegisters_lines (s : State) : (resetRegisters s).lines = s.lines := rfl
@[simp] theorem resetRegisters_now (s : State) : (resetRegisters s).now = s.now := rfl
@[simp] theorem resetRegisters_trace (s : State) : (resetRegisters s).trace = s.trace := rfl
@[simp] theorem resetRegisters_readData (s : State) : (resetRegisters s).readData = s.readData := rfl
@[simp] theorem resetRegisters_held (s : State) : (resetRegisters s).held = 0#37 := rfl
@[simp] theorem resetRegisters_free (s : State) : (resetRegisters s).free = s.free + 1 := rfl
@[simp] theorem resetRegisters_agenda (s : State) : (resetRegisters s).agenda = s.agenda := rfl
@[simp] theorem resetRegisters_build (s : State) : (resetRegisters s).build = s.build := rfl

end Sys2Proof.Machine
end

