-- ==== Sys2Proof/Laws/Ops.lean ====
section
/-! SUPPORT. The shared operations, each said once: what it gives, and that it keeps the canonical form of `LINES`. -/

namespace Sys2Proof.Machine

/-- `set_output` keeps the canonical form; every other write of a line goes through it. -/
theorem setOutput_linesWf (line : Word) (v : Level) {s : State} (h : linesWf s.lines) :
    linesWf (setOutput line v s).lines := linesWf_linesWrite line.isLt v h

/-- `START` in `Idle`: accepted or rejected (R192, R133). -/
theorem startRequest_cases {s t : State} (h : startRequest s = .next t) :
    s.st = .idle ∧
      ((GatePasses s.repeatExp s.repLimit ∧ t = acceptRequest (sampleRequest s)) ∨
       (¬ GatePasses s.repeatExp s.repLimit ∧ t = raiseMalformed (sampleRequest s))) := by
  unfold startRequest at h
  split at h
  · next hs =>
    cases h
    refine ⟨hs, ?_⟩
    unfold gateRequest
    by_cases hg : GatePasses s.repeatExp s.repLimit
    · exact .inl ⟨hg, if_pos ((gateAccepts_iff _ _).2 hg)⟩
    · exact .inr ⟨hg, if_neg fun ha => hg ((gateAccepts_iff _ _).1 ha)⟩
  · cases h

theorem startRequest_accept {s : State} (hs : s.st = .idle) (hg : GatePasses s.repeatExp s.repLimit) :
    startRequest s = .next (acceptRequest (sampleRequest s)) := by
  have ha : gateAccepts (sampleRequest s).repeatExp (sampleRequest s).repLimit = true := (gateAccepts_iff _ _).2 hg
  rw [startRequest, if_pos hs, gateRequest, if_pos ha]

theorem startRequest_reject {s : State} (hs : s.st = .idle) (hg : ¬ GatePasses s.repeatExp s.repLimit) :
    startRequest s = .next (raiseMalformed (sampleRequest s)) := by
  have ha : ¬ gateAccepts (sampleRequest s).repeatExp (sampleRequest s).repLimit = true :=
    fun ha => hg ((gateAccepts_iff _ _).1 ha)
  rw [startRequest, if_pos hs, gateRequest, if_neg ha]

/-- Where the position goes after a hold of a symbol (R140, R141). -/
theorem afterEmit_pos (s : State) :
    ((afterEmit s).st, (afterEmit s).i.val, (afterEmit s).h.toNat) =
      (if s.h.toNat < 3 then (s.st, s.i.val, s.h.toNat + 1)
       else if s.i.val < 11 then (s.st, s.i.val + 1, 0)
       else (.syncPulse, s.i.val, 0)) := by
  unfold afterEmit
  split
  · simp [BitVec.toNat_add]; omega
  · split <;> simp_all

/-- The position update of a symbol's hold moves nothing but the position. -/
theorem afterEmit_frame (s : State) :
    afterEmit s = { s with st := (afterEmit s).st, i := (afterEmit s).i, h := (afterEmit s).h } := by
  unfold afterEmit
  split
  · rfl
  · split <;> rfl

/-- After the sync pulse's holds (R142). -/
theorem afterSync_cases (s : State) :
    (s.h = 0#2 ∧ afterSync s = { s with h := 1#2 }) ∨
    (s.h ≠ 0#2 ∧ s.k.toNat + 1 < s.reps.toNat ∧ afterSync s = goNext s) ∨
    (s.h ≠ 0#2 ∧ ¬ s.k.toNat + 1 < s.reps.toNat ∧ afterSync s = finishRequest s) := by
  unfold afterSync
  split
  · exact .inl ⟨‹_›, rfl⟩
  · split
    · exact .inr (.inl ⟨‹_›, ‹_›, rfl⟩)
    · exact .inr (.inr ⟨‹_›, ‹_›, rfl⟩)

/-- A sequencer hold at the event level, and its start at the tick level (R171, R173). -/
theorem sequencerHold_event {s : State} (h : s.build.timing = .event) (l : Level) (m : BitVec 5)
    (after : State → State) : sequencerHold l m after s = after (holdEvent l m s) := by
  simp [sequencerHold, h]

theorem sequencerHold_tick {s : State} (h : s.build.timing = .tick) (l : Level) (m : BitVec 5)
    (after : State → State) : sequencerHold l m after s = holdStart l m s := by
  simp [sequencerHold, h]

/-- An operation of the block runs where no hold is in progress, and only there (R170, R173). -/
theorem unlessInHold_next {s : State} (h : s.hact = false) (t : State) : unlessInHold s t = .next t := by
  simp [unlessInHold, h]

theorem unlessInHold_refused {s : State} (h : s.hact = true) (t : State) :
    unlessInHold s t = .refused .notSelected := by
  simp [unlessInHold, h]

theorem unlessInHold_cases {s t u : State} (h : unlessInHold s t = .next u) : s.hact = false ∧ u = t := by
  unfold unlessInHold at h
  split at h
  · cases h
  · next hh => cases h; exact ⟨by simpa using hh, rfl⟩

/-- The hold of `EMIT` on the numbers (R136, R88). -/
theorem emitHold_cases {s : State} (h : sentTrit s.build.txOrder s.acc s.i.val ≠ 3) :
    ∃ m, emitHold s = some (decide (s.h.toNat % 2 = 0), m) ∧
      m.toNat = tableMult (sentTrit s.build.txOrder s.acc s.i.val) s.h.toNat := by
  obtain ⟨t, ht⟩ := trit_some h
  refine ⟨mult t s.h, by simp [emitHold, ht, levelOf_eq], ?_⟩
  rw [mult_toNat t _ s.h ht, tritsel_toNat]

theorem emitHold_none {s : State} (h : sentTrit s.build.txOrder s.acc s.i.val = 3) : emitHold s = none := by
  have ht : tritOf (tritsel s.build.txOrder s.acc s.i) = none := by rw [tritOf_eq_none, tritsel_toNat]; exact h
  simp [emitHold, ht]

/-- Everything `EMIT` can do (R136). -/
theorem execEmit_cases {s u : State} (h : execEmit s = .next u) :
    s.st = .emittingSymbol ∧ s.hact = false ∧ ∃ hold, emitHold s = some hold ∧
      u = sequencerHold hold.1 hold.2 afterEmit (readTrit s) := by
  unfold execEmit at h
  split at h
  · next hc =>
    split at h
    · next hold ht => cases h; exact ⟨hc.1, hc.2, hold, ht, rfl⟩
    · cases h
  · cases h

/-- Everything `SYNC` can do (R142). -/
theorem execSync_cases {s u : State} (h : execSync s = .next u) :
    s.st = .syncPulse ∧ s.hact = false ∧
      u = sequencerHold (syncHold s).1 (syncHold s).2 afterSync s := by
  unfold execSync at h
  split at h
  · next hc => cases h; exact ⟨hc.1, hc.2, rfl⟩
  · cases h

/-- Everything `TICK` can do (R173, R174). -/
theorem execTick_cases {s u : State} (h : execTick s = .next u) :
    urgent s = false ∧ ((s.hact = true ∧ u = tickHold s) ∨
      (s.hact = false ∧ u = { s with now := s.now + 1 })) := by
  unfold execTick at h
  split at h
  · cases h
  · next hu =>
    refine ⟨by simpa using hu, ?_⟩
    split at h
    · next hh => cases h; exact .inl ⟨hh, rfl⟩
    · next hh => cases h; exact .inr ⟨by simpa using hh, rfl⟩

/-- Everything `TX` can do (R151). -/
theorem execTx_cases {pin code period rep : Word} {s u : State} (h : execTx pin code period rep s = .next u) :
    s.hact = false ∧ ∃ a, startRequest (writeRequest ⟨pin, code, period, rep⟩ s) = .next a ∧
      ((a.st = .idle ∧ u = a) ∨
       (a.st ≠ .idle ∧ ∃ trits, tritsOf a.build.txOrder a.acc = some trits ∧ u = afterTelegrams trits a)) := by
  unfold execTx at h
  split at h
  · next a ha =>
    split at h
    · cases h
    · next hb =>
      refine ⟨by simpa using hb, a, ha, ?_⟩
      split at h
      · next hi => cases h; exact .inl ⟨hi, rfl⟩
      · next hi =>
        split at h
        · next trits ht => cases h; exact .inr ⟨hi, trits, ht, rfl⟩
        · cases h
  · cases h
  · cases h

end Sys2Proof.Machine
end

