-- ==== Sys2Proof/Laws/Parse.lean ====
section
/-! SUPPORT. What the text parser's split gives, and what each field gives (R195). -/

namespace Sys2Proof.Machine

theorem isBlank_iff (c : Char) : isBlank c = true ↔ c = ' ' ∨ c = '\t' := by simp [isBlank]

theorem splitFields_blanks {b : List Char} (hb : ∀ c ∈ b, c = ' ' ∨ c = '\t') (r : List Char) :
    splitFields (b ++ r) [] = splitFields r [] := by
  induction b with
  | nil => rfl
  | cons c b ih =>
    have hc := (isBlank_iff c).2 (hb c (by simp))
    rw [List.cons_append, splitFields, if_pos hc]
    exact ih fun d hd => hb d (by simp [hd])

/-- A field is read whole, up to a blank or the end of the line. -/
theorem splitFields_field {f : List Char} (hf : ∀ c ∈ f, c ≠ ' ' ∧ c ≠ '\t') (r cur : List Char) :
    splitFields (f ++ r) cur = splitFields r (f.reverse ++ cur) := by
  induction f generalizing cur with
  | nil => rfl
  | cons c f ih =>
    have hc : ¬ isBlank c = true := fun h => by
      rcases (isBlank_iff c).1 h with h | h
      · exact (hf c (by simp)).1 h
      · exact (hf c (by simp)).2 h
    rw [List.cons_append, splitFields.eq_def]
    simp only [if_neg hc]
    rw [ih (fun d hd => hf d (by simp [hd]))]
    simp

/-- The split of a line gives its fields. -/
theorem splitFields_isLineOf {text : List Char} {fields : List (List Char)} (h : IsLineOf text fields) :
    splitFields text [] = fields := by
  obtain ⟨lead, parts, rfl, rfl, hl, hp, hg⟩ := h
  rw [splitFields_blanks hl]
  induction parts with
  | nil => rfl
  | cons p ps ih =>
    obtain ⟨hne, hf, hb⟩ := hp p (by simp)
    have hps : splitFields (ps.flatMap fun q => q.1 ++ q.2) [] = ps.map Prod.fst :=
      ih (fun q hq => hp q (by simp [hq])) fun q hq => by
        cases ps with
        | nil => cases hq
        | cons a as => exact hg q (by simp [List.dropLast_cons_of_ne_nil, hq])
    rw [List.flatMap_cons, List.append_assoc, splitFields_field hf, List.append_nil, List.map_cons, ← hps]
    cases hrev : p.1.reverse with
    | nil => exact absurd (List.reverse_eq_nil_iff.1 hrev) hne
    | cons d ds =>
      have hpf : (d :: ds).reverse = p.1 := by rw [← hrev, List.reverse_reverse]
      cases hq : p.2 with
      | nil =>
        cases ps with
        | nil => simp [splitFields, ← hpf]
        | cons a as => exact absurd hq (hg p (by simp [List.dropLast_cons_of_ne_nil]))
      | cons c q =>
        rw [hq] at hb
        have hc := (isBlank_iff c).2 (hb c (by simp))
        rw [List.cons_append, splitFields.eq_def]
        simp only [if_pos hc, hpf]
        rw [splitFields_blanks fun e he => hb e (by simp [he])]

/-- A missing or malformed field takes its fallback. -/
theorem fieldWord_fallback {f : Option (List Char)} (h : f = none ∨ ∃ cs, f = some cs ∧ readField cs = .malformed)
    (least greatest : Int) (fallback open32 : Word) : fieldWord least greatest fallback open32 f = some fallback := by
  rcases h with rfl | ⟨cs, rfl, h⟩
  · rfl
  · simp only [fieldWord, h]

/-- A field that reads as an integer takes its value, a free value, or none. -/
theorem fieldWord_value {cs : List Char} {z : Int} (h : readField cs = .value z)
    (least greatest : Int) (fallback open32 : Word) :
    fieldWord least greatest fallback open32 (some cs) =
      if z < -(2 ^ 31) ∨ greatest < z then none else if z < least then some open32 else some (BitVec.ofInt 32 z) := by
  simp only [fieldWord, h]

/-- A hexadecimal field is left out. -/
theorem fieldWord_outside {cs : List Char} (h : readField cs = .outside) (least greatest : Int) (fallback open32 : Word) :
    fieldWord least greatest fallback open32 (some cs) = none := by
  simp only [fieldWord, h]

/-- A line takes a free value if and only if an unsigned field holds a negative integer. -/
theorem takesFreeValue_iff (fields : List (List Char)) :
    takesFreeValue fields = true ↔ ∃ j f z, j < 3 ∧ fields[j]? = some f ∧ readField f = .value z ∧ z < 0 := by
  simp only [takesFreeValue, List.any_eq_true, List.mem_iff_getElem?, List.getElem?_take]
  constructor
  · rintro ⟨f, ⟨j, hj⟩, hn⟩
    split at hj
    · cases hr : readField f with
      | value z => exact ⟨j, f, z, ‹_›, hj, hr, by simpa [FieldValue.isNegative, hr] using hn⟩
      | malformed => simp [FieldValue.isNegative, hr] at hn
      | outside => simp [FieldValue.isNegative, hr] at hn
    · cases hj
  · rintro ⟨j, f, z, hj, hf, hr, hz⟩
    exact ⟨f, ⟨j, by rw [if_pos hj, hf]⟩, by simp [FieldValue.isNegative, hr, hz]⟩

end Sys2Proof.Machine
end

