-- ==== Sys2Proof/Laws/PerInstr.lean ====
section
/-! SUPPORT. One lemma per operation: decoding what the encoder gives for it gives it back (R80, R93). -/

namespace Sys2Proof.Laws.RoundTrip

/-- Decoding the encoded form of a well-formed operation gives the operation. -/
def Statement (i : Instr) : Prop := i.WellFormed = true → decode (encode i) = .ok i

/-- The value field of a `HOST` word. -/
theorem host_value (wn : BitVec 4) (v : Word) : (wn ++ v).extractLsb' 0 32 = v := by
  apply BitVec.eq_of_toNat_eq
  rw [BitVec.extractLsb'_toNat, BitVec.toNat_append, Nat.shiftRight_zero, ← Nat.shiftLeft_add_eq_or_of_lt v.isLt,
    Nat.shiftLeft_eq]
  have := v.isLt
  omega

/-- The bits above the value field. -/
theorem host_bit (wn : BitVec 4) (v : Word) (j : Nat) : (wn ++ v).getLsbD (32 + j) = wn.getLsbD j := by
  rw [BitVec.getLsbD_append]
  simp

theorem decode_hostWord (wn : BitVec 4) (v : Word) :
    decode (hostWord wn v) = .ok
      (match wn.getLsbD 3, wn.getLsbD 2, wn.getLsbD 1, wn.getLsbD 0 with
      | true, false, false, false => .wrPin v
      | true, false, false, true => .wrCode v
      | true, false, true, false => .wrPeriod v
      | true, false, true, true => .wrRepeat v
      | true, true, false, false => .wrRepLimit v
      | true, true, false, true => if v.getLsbD 0 then .start v else .wrNopCtrl v
      | true, true, true, false => .wrNopStatus v
      | true, true, true, true => .wrNopUnused v
      | false, false, false, false => .rdPin v
      | false, false, false, true => .rdCode v
      | false, false, true, false => .rdPeriod v
      | false, false, true, true => .rdRepeat v
      | false, true, false, false => .rdRepLimit v
      | false, true, false, true => .rdZeroCtrl v
      | false, true, true, false => .rdStatus v
      | false, true, true, true => .rdZeroUnused v) := by
  have h3 := host_bit wn v 3
  have h2 := host_bit wn v 2
  have h1 := host_bit wn v 1
  have h0 := host_bit wn v 0
  simp only [Nat.reduceAdd] at h3 h2 h1 h0
  rw [hostWord, decode, decodeHost]
  simp only [host_value]
  rw [h3, h2, h1, h0]
  try rfl

theorem wrPin (v : Word) : Statement (.wrPin v) := fun _ => by rw [encode, decode_hostWord]; rfl
theorem wrCode (v : Word) : Statement (.wrCode v) := fun _ => by rw [encode, decode_hostWord]; rfl
theorem wrPeriod (v : Word) : Statement (.wrPeriod v) := fun _ => by rw [encode, decode_hostWord]; rfl
theorem wrRepeat (v : Word) : Statement (.wrRepeat v) := fun _ => by rw [encode, decode_hostWord]; rfl
theorem wrRepLimit (v : Word) : Statement (.wrRepLimit v) := fun _ => by rw [encode, decode_hostWord]; rfl
theorem start (v : Word) : Statement (.start v) := fun h => by
  have hv : v.getLsbD 0 = true := by simpa [Instr.WellFormed] using h
  rw [encode, decode_hostWord, hv]; rfl
theorem wrNopCtrl (v : Word) : Statement (.wrNopCtrl v) := fun h => by
  have hv : v.getLsbD 0 = false := by simpa [Instr.WellFormed] using h
  rw [encode, decode_hostWord, hv]; rfl
theorem wrNopStatus (v : Word) : Statement (.wrNopStatus v) := fun _ => by rw [encode, decode_hostWord]; rfl
theorem wrNopUnused (v : Word) : Statement (.wrNopUnused v) := fun _ => by rw [encode, decode_hostWord]; rfl
theorem rdPin (x : Word) : Statement (.rdPin x) := fun _ => by rw [encode, decode_hostWord]; rfl
theorem rdCode (x : Word) : Statement (.rdCode x) := fun _ => by rw [encode, decode_hostWord]; rfl
theorem rdPeriod (x : Word) : Statement (.rdPeriod x) := fun _ => by rw [encode, decode_hostWord]; rfl
theorem rdRepeat (x : Word) : Statement (.rdRepeat x) := fun _ => by rw [encode, decode_hostWord]; rfl
theorem rdRepLimit (x : Word) : Statement (.rdRepLimit x) := fun _ => by rw [encode, decode_hostWord]; rfl
theorem rdZeroCtrl (x : Word) : Statement (.rdZeroCtrl x) := fun _ => by rw [encode, decode_hostWord]; rfl
theorem rdStatus (x : Word) : Statement (.rdStatus x) := fun _ => by rw [encode, decode_hostWord]; rfl
theorem rdZeroUnused (x : Word) : Statement (.rdZeroUnused x) := fun _ => by rw [encode, decode_hostWord]; rfl
theorem sym0 : Statement (.sym0) := fun _ => rfl
theorem sym1 : Statement (.sym1) := fun _ => rfl
theorem sym2 : Statement (.sym2) := fun _ => rfl
theorem idle : Statement (.idle) := fun _ => rfl
theorem repeating : Statement (.repeating) := fun _ => rfl
theorem emit : Statement (.emit) := fun _ => rfl
theorem sync : Statement (.sync) := fun _ => rfl
theorem hold (l : Level) (m : BitVec 5) : Statement (.hold l m) := fun _ => by
  cases l <;> revert m <;> decide

/-! The four fields of a `REQ` record (R81). -/

theorem append_toNat {n : Nat} (a : BitVec n) (b : Word) : (a ++ b).toNat = a.toNat * 2 ^ 32 + b.toNat := by
  rw [BitVec.toNat_append, ← Nat.shiftLeft_add_eq_or_of_lt b.isLt, Nat.shiftLeft_eq]

theorem req_toNat (p c u r : Word) :
    (p ++ c ++ u ++ r).toNat = ((p.toNat * 2 ^ 32 + c.toNat) * 2 ^ 32 + u.toNat) * 2 ^ 32 + r.toNat := by
  rw [append_toNat, append_toNat, append_toNat]

theorem req_pin (p c u r : Word) : (p ++ c ++ u ++ r).extractLsb' 96 32 = p := by
  apply BitVec.eq_of_toNat_eq
  rw [BitVec.extractLsb'_toNat, req_toNat, Nat.shiftRight_eq_div_pow]
  have := p.isLt; have := c.isLt; have := u.isLt; have := r.isLt
  omega

theorem req_code (p c u r : Word) : (p ++ c ++ u ++ r).extractLsb' 64 32 = c := by
  apply BitVec.eq_of_toNat_eq
  rw [BitVec.extractLsb'_toNat, req_toNat, Nat.shiftRight_eq_div_pow]
  have := p.isLt; have := c.isLt; have := u.isLt; have := r.isLt
  omega

theorem req_period (p c u r : Word) : (p ++ c ++ u ++ r).extractLsb' 32 32 = u := by
  apply BitVec.eq_of_toNat_eq
  rw [BitVec.extractLsb'_toNat, req_toNat, Nat.shiftRight_eq_div_pow]
  have := p.isLt; have := c.isLt; have := u.isLt; have := r.isLt
  omega

theorem req_rep (p c u r : Word) : (p ++ c ++ u ++ r).extractLsb' 0 32 = r := by
  apply BitVec.eq_of_toNat_eq
  rw [BitVec.extractLsb'_toNat, req_toNat, Nat.shiftRight_eq_div_pow]
  have := p.isLt; have := c.isLt; have := u.isLt; have := r.isLt
  omega

theorem tx (pin code period rep : Word) : Statement (.tx pin code period rep) := fun _ => by
  simp only [encode, decode, decodeReq, req_pin, req_code, req_period, req_rep]
theorem mask (code : Word) : Statement (.mask code) := fun _ => rfl
theorem encode (code : Word) : Statement (.encode code) := fun _ => rfl
theorem parse (text : List Char) : Statement (.parse text) := fun h => if_pos h
theorem encStep : Statement (.encStep) := fun _ => rfl
theorem tritsel : Statement (.tritsel) := fun _ => rfl
theorem forceLow : Statement (.forceLow) := fun _ => rfl
theorem gate : Statement (.gate) := fun _ => rfl
theorem accept : Statement (.accept) := fun _ => rfl
theorem nextTelegram : Statement (.nextTelegram) := fun _ => rfl
theorem finish : Statement (.finish) := fun _ => rfl
theorem tick : Statement (.tick) := fun _ => rfl
theorem reset : Statement (.reset) := fun _ => rfl

end Sys2Proof.Laws.RoundTrip
end

