-- ==== Sys2Proof/Laws/Step.lean ====
section
/-! SUPPORT. What a step can do, said once: claims about `step` take it apart with `step_cases`. -/

namespace Sys2Proof.Machine

/-- The step each `STATE` code selects (R92). -/
theorem decode_seq_bits (c : SeqState) :
    decode (.seq c.bits) =
      .ok (match c with | .idle => .idle | .repeating => .repeating | .emittingSymbol => .emit | .syncPulse => .sync) := by
  cases c <;> rfl

/-- The sequencer's turn, without the decoder. -/
theorem sequencerTurn_eq (s : State) :
    sequencerTurn s =
      if s.hact then (if s.dly = 0#37 then .holdEnds s else .run .tick s)
      else .run (match s.st with
        | .idle => .idle | .repeating => .repeating | .emittingSymbol => .emit | .syncPulse => .sync) s := by
  unfold sequencerTurn fetchWord
  rw [decode_seq_bits]

/-- The states in which a reset input is taken (R217, R243): at once, over another input, after ticks in `Idle`, within a
hold of the event level. -/
def ResetFrom (s s₀ : State) : Prop :=
  (∃ w rest, s.agenda = .resetWins w :: rest ∧ s₀ = { s with agenda := rest }) ∨
  (∃ n rest, s.agenda = .resetAfter n :: rest ∧
    (s₀ = { s with agenda := rest } ∨ (s.hact = false ∧ s.st = .idle ∧ s₀ = { s with now := s.now + n, agenda := rest }) ∨
      ∃ hold, s.hact = false ∧ currentHold s = some hold ∧ n ≤ duration hold.2 s.lPeriod * Config.ticksPerUs ∧
        s₀ = partOfHold hold n (holdSource { s with agenda := rest })))

/-- The agenda on the sequencer's turn: what is left of it, or the reset that is still to come. -/
def TurnAgenda (s : State) (ag : List Turn) : Prop :=
  ag <:+ s.agenda ∨ ∃ n k rest, s.agenda = .resetAfter n :: rest ∧ ag = .resetAfter k :: rest

theorem resetAfterTurn_cases {s : State} {n : Nat} {rest : List Turn} (h : s.agenda = .resetAfter n :: rest) :
    (∃ s₀, ResetFrom s s₀ ∧ resetAfterTurn n rest s = .run .reset s₀) ∨
    (∃ ag, TurnAgenda s ag ∧ resetAfterTurn n rest s = sequencerTurn { s with agenda := ag }) := by
  have same : TurnAgenda s s.agenda := .inl (List.suffix_refl _)
  unfold resetAfterTurn
  split
  · exact .inl ⟨_, .inr ⟨n, rest, h, .inl rfl⟩, rfl⟩
  · split
    · split
      · exact .inr ⟨s.agenda, same, rfl⟩
      · exact .inr ⟨_, .inr ⟨n, n - 1, rest, h, rfl⟩, rfl⟩
    · next hh =>
      split
      · next hs => exact .inl ⟨_, .inr ⟨n, rest, h, .inr (.inl ⟨by simpa using hh, hs, rfl⟩)⟩, rfl⟩
      · split
        · next hold _ hc =>
          split
          · next hn => exact .inl ⟨_, .inr ⟨n, rest, h, .inr (.inr ⟨hold, by simpa using hh, hc, hn, rfl⟩)⟩, rfl⟩
          · exact .inr ⟨_, .inr ⟨n, _, rest, h, rfl⟩, rfl⟩
        · exact .inr ⟨s.agenda, same, rfl⟩
        · exact .inr ⟨s.agenda, same, rfl⟩

/-- What `fetch` can name: the head of the agenda, a reset, or the sequencer's turn. -/
theorem fetch_cases (s : State) :
    (∃ w rest, s.agenda = .input w :: rest ∧ fetch s = fetchWord w { s with agenda := rest }) ∨
    (∃ s₀, ResetFrom s s₀ ∧ fetch s = .run .reset s₀) ∨
    (∃ ag, TurnAgenda s ag ∧ fetch s = sequencerTurn { s with agenda := ag }) := by
  unfold fetch
  split
  · next h => exact .inr (.inr ⟨[], .inl (by simp), by rw [← h]⟩)
  · next rest h => exact .inr (.inr ⟨rest, .inl (by rw [h]; exact List.suffix_cons _ _), rfl⟩)
  · next w rest h => exact .inr (.inl ⟨_, .inl ⟨w, rest, h, rfl⟩, rfl⟩)
  · next n rest h => exact .inr (resetAfterTurn_cases h)
  · next rest h =>
    split
    · exact .inr (.inr ⟨s.agenda, .inl (List.suffix_refl _), rfl⟩)
    · exact .inl ⟨_, rest, h, rfl⟩
  · next w rest _ h => exact .inl ⟨w, rest, h, rfl⟩

/-- Everything a step can do. -/
theorem step_cases {s t : State} (h : step s = .next t) :
    (∃ w rest i, s.agenda = .input w :: rest ∧ decode w = .ok i ∧ exec i { s with agenda := rest } = .next t) ∨
    (∃ s₀, ResetFrom s s₀ ∧ exec .reset s₀ = .next t) ∨
    (∃ ag, TurnAgenda s ag ∧
      ((s.hact = true ∧ s.dly = 0#37 ∧ t = endHold { s with agenda := ag }) ∨
       (s.hact = true ∧ s.dly ≠ 0#37 ∧ exec .tick { s with agenda := ag } = .next t) ∨
       (s.hact = false ∧ exec (match s.st with
          | .idle => .idle | .repeating => .repeating | .emittingSymbol => .emit | .syncPulse => .sync)
          { s with agenda := ag } = .next t))) := by
  unfold step at h
  rcases fetch_cases s with ⟨w, rest, ha, hf⟩ | ⟨s₀, ha, hf⟩ | ⟨ag, ha, hf⟩
  · rw [hf] at h
    unfold fetchWord at h
    cases hd : decode w with
    | error e => rw [hd] at h; cases h
    | ok i => rw [hd] at h; exact .inl ⟨w, rest, i, ha, hd, h⟩
  · rw [hf] at h; exact .inr (.inl ⟨s₀, ha, h⟩)
  · refine .inr (.inr ⟨ag, ha, ?_⟩)
    rw [hf, sequencerTurn_eq] at h
    by_cases h1 : s.hact = true
    · by_cases h2 : s.dly = 0#37
      · simp only [h1, h2, if_true] at h; exact .inl ⟨h1, h2, by cases h; simp [h1, h2]⟩
      · simp only [h1, h2, if_true, if_false] at h; exact .inr (.inl ⟨h1, h2, by simpa [h1] using h⟩)
    · simp only [Bool.not_eq_true] at h1
      simp only [h1] at h
      exact .inr (.inr ⟨h1, by simpa [h1] using h⟩)

/-- Runs compose. -/
theorem runSteps_add {m n : Nat} {s t : State} (h : runSteps m s = .next t) :
    runSteps (m + n) s = runSteps n t := by
  induction m generalizing s with
  | zero => rw [Nat.zero_add]; simp only [runSteps, Host.Outcome.next.injEq] at h; rw [h]
  | succ m ih =>
    rw [Nat.succ_add]
    simp only [runSteps] at h ⊢
    cases hs : step s with
    | next u => rw [hs] at h; exact ih h
    | fault r => rw [hs] at h; cases h
    | refused r => rw [hs] at h; cases h

/-- With nothing pending and no hold in progress the sequencer takes the step of its state. -/
theorem step_sequencer {s : State} (ha : s.agenda = []) (hh : s.hact = false) :
    step s = exec (match s.st with
      | .idle => .idle | .repeating => .repeating | .emittingSymbol => .emit | .syncPulse => .sync) s := by
  simp [step, fetch, ha, sequencerTurn_eq, hh]

end Sys2Proof.Machine
end

