-- ==== Sys2Proof/Tests/Slice0.lean ====
section
/-! SUPPORT. The model's own tests, with results from `95_test_vectors.md` and the rules, and a witness for the
hypotheses of each statement. -/

namespace Sys2Proof.Tests

open Sys2Proof Sys2Proof.Machine

/-- A field of the next state. -/
def got {α : Type} (f : State → α) : Out → Option α
  | .next s => some (f s)
  | .fault _ => none
  | .refused _ => none

/-- The reason of a refusal. -/
def why : Out → Option Refusal
  | .next _ => none
  | .fault _ => none
  | .refused r => some r

/-- A state of a request on line 9 with period 320 whose accumulator is that of code 255 (V2, P1). -/
def busyAt (st : SeqState) (i : Fin 12) (h : BitVec 2) (k : BitVec 7) (reps : BitVec 8) : State :=
  { State.reset with
    st := st, i := i, h := h, k := k, reps := reps, acc := 0x141000#24, lPin := 9#32, lPeriod := 320#32
    out := h.getLsbD 0, lines := [(9, h.getLsbD 0)] }

/-- The same machine at the tick level. -/
def atTicks (s : State) : State := { s with build := ⟨s.build.txOrder, .tick⟩ }

/-- The same machine in a hold. -/
def inHold (dly held : BitVec 37) (s : State) : State :=
  { atTicks s with hact := true, dly := dly, held := held, out := levelOf s.h, lines := [(9, levelOf s.h)] }

/-- A machine with other request registers. -/
def withRequest (rep limit : Word) : State := { State.reset with repeatExp := rep, repLimit := limit }

/-! ## Well-formedness -/

theorem test_wf_start : (Instr.start 1#32).WellFormed = true ∧ (Instr.start 2#32).WellFormed = false := by decide
theorem test_wf_nop : (Instr.wrNopCtrl 2#32).WellFormed = true ∧ (Instr.wrNopCtrl 3#32).WellFormed = false := by decide
theorem test_wf_parse : (Instr.parse ['4']).WellFormed = true ∧ (Instr.parse ['4', '\n']).WellFormed = false ∧
    (Instr.parse ['\r']).WellFormed = false := by decide
theorem test_decode_refuses : decode (.trit 0b11#2) = .error .reservedTrit ∧
    decode (.line ['4', '\n']) = .error .lineEnd := by decide

/-! ## Decoding: words written out from R81, R87, R90, R92, R93 (`HOST` words also in P1 to P4) -/

theorem test_decode_writes :
    decode (.host 0x800000009#36) = .ok (.wrPin 9#32) ∧ decode (.host 0x9000000FF#36) = .ok (.wrCode 0xFF#32) ∧
    decode (.host 0xA00000140#36) = .ok (.wrPeriod 320#32) ∧ decode (.host 0xB00000003#36) = .ok (.wrRepeat 3#32) ∧
    decode (.host 0xC00000080#36) = .ok (.wrRepLimit 128#32) := by decide
theorem test_decode_ctrl :
    decode (.host 0xD00000001#36) = .ok (.start 1#32) ∧ decode (.host 0xD00000002#36) = .ok (.wrNopCtrl 2#32) ∧
    decode (.host 0xEFFFFFFFF#36) = .ok (.wrNopStatus 0xFFFFFFFF#32) ∧
    decode (.host 0xF00000001#36) = .ok (.wrNopUnused 1#32) := by decide
theorem test_decode_reads :
    decode (.host 0x000000000#36) = .ok (.rdPin 0#32) ∧ decode (.host 0x100000000#36) = .ok (.rdCode 0#32) ∧
    decode (.host 0x200000005#36) = .ok (.rdPeriod 5#32) ∧ decode (.host 0x300000000#36) = .ok (.rdRepeat 0#32) ∧
    decode (.host 0x400000000#36) = .ok (.rdRepLimit 0#32) ∧ decode (.host 0x500000000#36) = .ok (.rdZeroCtrl 0#32) ∧
    decode (.host 0x600000000#36) = .ok (.rdStatus 0#32) ∧
    decode (.host 0x700000000#36) = .ok (.rdZeroUnused 0#32) := by decide
theorem test_decode_trit_seq :
    decode (.trit 0#2) = .ok .sym0 ∧ decode (.trit 1#2) = .ok .sym1 ∧ decode (.trit 2#2) = .ok .sym2 ∧
    decode (.seq 0#2) = .ok .idle ∧ decode (.seq 1#2) = .ok .repeating ∧ decode (.seq 2#2) = .ok .emit ∧
    decode (.seq 3#2) = .ok .sync := by decide
theorem test_decode_hold : decode (.hold 0x23#6) = .ok (.hold true 3#5) ∧ decode (.hold 0x1F#6) = .ok (.hold false 31#5) := by
  decide
theorem test_decode_req : decode (.req 0x00000009000000FF0000014000000003#128) = .ok (.tx 9#32 0xFF#32 320#32 3#32) := by
  decide
theorem test_decode_code :
    decode (.maskCode 0x1000FF#32) = .ok (.mask 0x1000FF#32) ∧ decode (.encodeCode 5#32) = .ok (.encode 5#32) := by decide
theorem test_decode_line : decode (.line ['4', ' ', 'x']) = .ok (.parse ['4', ' ', 'x']) := by decide
theorem test_decode_event :
    decode (.event .encStep) = .ok .encStep ∧ decode (.event .tritsel) = .ok .tritsel ∧
    decode (.event .forceLow) = .ok .forceLow ∧ decode (.event .gate) = .ok .gate ∧
    decode (.event .accept) = .ok .accept ∧ decode (.event .nextTelegram) = .ok .nextTelegram ∧
    decode (.event .finish) = .ok .finish ∧ decode (.event .tick) = .ok .tick ∧
    decode (.event .reset) = .ok .reset := by decide
theorem test_table_words :
    decodeTableWord 40 0xD00000001 = some (.start 1#32) ∧ decodeTableWord 8 0x2 = some .emit ∧
    decodeTableWord 8 0x21 = some (.hold true 1#5) ∧ decodeTableWord 8 66 = some .sym2 ∧
    decodeTableWord 32 5 = some (.encode 5#32) ∧ decodeTableWord 0 0 = some (.parse []) ∧
    decodeTableWord 8 67 = none := by decide
/-- The word placed for the next fetch runs first (R93). -/
theorem test_with_fetch_word :
    got (·.code) (step (State.reset.withFetchWord 40 0x900100005)) = some 0x100005#32 ∧
    got (·.h) (step (State.reset.withFetchWord 8 2)) = some 1#2 ∧
    got (·.st) (step (State.reset.withFetchWord 0 7)) = some .idle := by decide

/-! ## The host's operations (P1 to P6, V5) -/

theorem test_writes :
    got (·.pin) (exec (.wrPin 4#32) .reset) = some 4#32 ∧
    got (·.code) (exec (.wrCode 0xFFFFFFFF#32) .reset) = some 0xFFFFFFFF#32 ∧
    got (·.period) (exec (.wrPeriod 1#32) .reset) = some 1#32 ∧
    got (·.repeatExp) (exec (.wrRepeat 0xFFFFFFFF#32) .reset) = some 0xFFFFFFFF#32 ∧
    got (·.repLimit) (exec (.wrRepLimit 128#32) .reset) = some 128#32 := by decide
theorem test_write_late : got (fun s => (s.pin, s.lPin)) (exec (.wrPin 5#32) (busyAt .syncPulse 0 0#2 0#7 1#8)) =
    some (5#32, 9#32) := by decide
theorem test_nops :
    got statusWord (exec (.wrNopStatus 0xFFFFFFFF#32) .reset) = some 0#32 ∧
    got (·.pin) (exec (.wrNopUnused 1#32) .reset) = some 9#32 ∧
    got (·.st) (exec (.wrNopCtrl 0xFFFFFFFE#32) .reset) = some .idle := by decide
/-- After reset the reads return 9, 0xFF, 320, 3, 100 (R191). -/
theorem test_reads :
    got (·.readData) (exec (.rdPin 0#32) .reset) = some 9#32 ∧
    got (·.readData) (exec (.rdCode 7#32) .reset) = some 0xFF#32 ∧
    got (·.readData) (exec (.rdPeriod 0#32) .reset) = some 320#32 ∧
    got (·.readData) (exec (.rdRepeat 0#32) .reset) = some 3#32 ∧
    got (·.readData) (exec (.rdRepLimit 0#32) .reset) = some 100#32 := by decide
theorem test_reads_zero :
    got (·.readData) (exec (.rdZeroCtrl 9#32) { State.reset with readData := 5#32 }) = some 0#32 ∧
    got (·.readData) (exec (.rdZeroUnused 9#32) { State.reset with readData := 5#32 }) = some 0#32 := by decide
theorem test_status :
    got (·.readData) (exec (.rdStatus 0#32) { State.reset with result := .ok }) = some 2#32 ∧
    got (·.readData) (exec (.rdStatus 0#32) { State.reset with result := .malformedRequest }) = some 4#32 ∧
    got (·.readData) (exec (.rdStatus 0#32) (busyAt .repeating 0 0#2 0#7 1#8)) = some 1#32 := by decide
/-- P1, the state after operation 5. -/
theorem test_start_accepted :
    got (fun s => (s.reps, s.acc, s.k, s.st)) (exec (.start 1#32) .reset) =
      some (8#8, 0x141000#24, 0#7, .repeating) ∧
    got (fun s => (s.lPin, s.lPeriod, s.trace)) (exec (.start 1#32) .reset) =
      some (9#32, 320#32, [.set 9#32 false]) := by decide
/-- P2, operation 5; V20's boundaries of the gate. -/
theorem test_start_rejected :
    got (fun s => (s.result, s.trace)) (exec (.start 1#32) (withRequest 7#32 100#32)) =
      some (.malformedRequest, [.set 9#32 false]) ∧
    got (·.result) (exec (.start 1#32) (withRequest 6#32 63#32)) = some .malformedRequest ∧
    got (·.result) (exec (.start 1#32) (withRequest 0xFFFFFFFF#32 100#32)) = some .malformedRequest := by decide
/-- V5. -/
theorem test_parse_fallback :
    got (fun s => (s.pin, s.code, s.period, s.repeatExp))
      (exec (.parse ['4', ' ', 'x', ' ', '2', '5', '0', ' ', '2']) .reset) = some (4#32, 255#32, 250#32, 2#32) := by
  decide
theorem test_parse_signed :
    got (fun s => (s.pin, s.code, s.period, s.repeatExp))
      (exec (.parse ['\t', '8', ' ', ' ', '6', ' ', '3', ' ', '-', '1', ' ']) .reset) =
        some (8#32, 6#32, 3#32, 0xFFFFFFFF#32) := by decide

/-- A negative integer in an unsigned field runs; only its own register is open (log 33). -/
theorem test_parse_negative :
    got (fun s => (s.code, s.period, s.repeatExp)) (exec (.parse ['-', '1', ' ', '6', ' ', '3', ' ', '2']) .reset) =
      some (6#32, 3#32, 2#32) := by decide

/-! ## The encoder (V10 to V12, V14) -/

theorem test_mask : got (·.tmp.work) (exec (.mask 0x12345678#32) .reset) = some 0x45678#20 := by decide
theorem test_encStep :
    got (fun s => (s.tmp.t, s.tmp.work, s.tmp.a))
      (exec .encStep { State.reset with tmp := ⟨1048575#20, 0#4, 0#24, 3#2⟩ }) = some (0#2, 349525#20, 0#24) ∧
    got (fun s => (s.tmp.t, s.tmp.work, s.tmp.a))
      (exec .encStep { State.reset with tmp := ⟨2#20, 0#4, 0xC00000#24, 0#2⟩ }) = some (2#2, 0#20, 2#24) := by decide
theorem test_encode : got (·.acc) (exec (.encode 0xFF#32) .reset) = some 0x141000#24 ∧
    got (·.acc) (exec (.encode 531440#32) .reset) = some 0xAAAAAA#24 := by decide
theorem test_encode_alias : got (fun s => (s.acc, s.tmp.work)) (exec (.encode 0xFFFFFFFF#32) .reset) =
    some (0x11162A#24, 1#20) := by decide
theorem test_tritsel :
    got (·.tmp.t) (exec .tritsel { busyAt .idle 6 0#2 0#7 1#8 with acc := 0x141608#24 }) = some 1#2 ∧
    got (·.tmp.t) (exec .tritsel { busyAt .idle 6 0#2 0#7 1#8 with
      acc := 0x141608#24, i := 7, build := ⟨.mspairFirst, .event⟩ }) = some 2#2 := by decide

/-! ## The transmitter (V3, P1, P3, the rules' examples) -/

theorem test_forceLow : got (fun s => (s.out, s.lines, s.trace)) (exec .forceLow (busyAt .syncPulse 0 1#2 0#7 1#8)) =
    some (false, [(9, false)], [.set 9#32 false]) := by decide
theorem test_gate : got (·.st) (exec .gate (withRequest 7#32 128#32)) = some .repeating ∧
    got (·.result) (exec .gate (withRequest 8#32 0xFFFFFFFF#32)) = some .malformedRequest := by decide
theorem test_accept : got (fun s => (s.reps, s.acc)) (exec .accept (withRequest 7#32 128#32)) =
    some (128#8, 0x141000#24) := by decide
theorem test_repeating : got (fun s => (s.st, s.k, s.i, s.h)) (exec .repeating (busyAt .repeating 11 1#2 2#7 8#8)) =
    some (.emittingSymbol, 2#7, 0, 0#2) := by decide
/-- R136's example. -/
theorem test_emit : got (fun s => (s.trace, s.h, s.i)) (exec .emit (busyAt .emittingSymbol 6 0#2 0#7 8#8)) =
    some ([.set 9#32 true, .wait 960], 1#2, 6) := by decide
theorem test_emit_last : got (fun s => (s.st, s.h)) (exec .emit (busyAt .emittingSymbol 11 3#2 0#7 8#8)) =
    some (.syncPulse, 0#2) := by decide
theorem test_sym0 : got (·.trace) (exec .sym0 (busyAt .idle 0 0#2 0#7 1#8)) =
    some [.set 9#32 true, .wait 320, .set 9#32 false, .wait 960, .set 9#32 true, .wait 320, .set 9#32 false,
      .wait 960] := by decide
theorem test_sym1 : got (·.trace) (exec .sym1 (busyAt .idle 0 0#2 0#7 1#8)) =
    some [.set 9#32 true, .wait 960, .set 9#32 false, .wait 320, .set 9#32 true, .wait 960, .set 9#32 false,
      .wait 320] := by decide
theorem test_sym2 : got (fun s => (s.trace, s.now)) (exec .sym2 (busyAt .idle 0 0#2 0#7 1#8)) =
    some ([.set 9#32 true, .wait 320, .set 9#32 false, .wait 960, .set 9#32 true, .wait 960, .set 9#32 false,
      .wait 320], 2560) := by decide
theorem test_sync_high : got (fun s => (s.trace, s.h)) (exec .sync (busyAt .syncPulse 11 0#2 0#7 8#8)) =
    some ([.set 9#32 true, .wait 320], 1#2) := by decide
theorem test_sync_low : got (fun s => (s.trace, s.k, s.st)) (exec .sync (busyAt .syncPulse 11 1#2 0#7 8#8)) =
    some ([.set 9#32 false, .wait 9920], 1#7, .repeating) := by decide
theorem test_next : got (fun s => (s.k, s.st)) (exec .nextTelegram (busyAt .syncPulse 11 1#2 0#7 8#8)) =
    some (1#7, .repeating) ∧
    why (exec .nextTelegram (busyAt .syncPulse 11 1#2 7#7 8#8)) = some .notSelected := by decide
theorem test_finish : got (fun s => (s.trace, s.result, s.st)) (exec .finish (busyAt .syncPulse 11 1#2 7#7 8#8)) =
    some ([.set 9#32 false], .ok, .idle) := by decide
theorem test_idle : got (·.now) (exec .idle .reset) = some 0 ∧
    why (exec .idle (busyAt .syncPulse 11 1#2 0#7 1#8)) = some .notSelected := by decide
/-- P3. -/
theorem test_tx : got (fun s => (s.now, s.trace.length, s.result, s.acc))
    (exec (.tx 4#32 0x100005#32 1#32 0#32) .reset) = some (128, 102, .ok, 0x900000#24) := by decide
/-- P2. -/
theorem test_tx_rejected : got (fun s => (s.now, s.trace)) (exec (.tx 9#32 0xFF#32 320#32 7#32) .reset) =
    some (0, [.set 9#32 false]) := by decide

/-! ## The timing controller and reset (R171, R173, V60, P5) -/

theorem test_hold : got (·.trace) (exec (.hold false 31#5) (busyAt .idle 0 0#2 0#7 1#8)) =
    some [.set 9#32 false, .wait 9920] := by decide
theorem test_hold_ticks : got (fun s => (s.dly, s.hact, s.trace))
    (exec (.hold true 31#5) { atTicks (busyAt .idle 0 0#2 0#7 1#8) with lPeriod := 0xFFFFFFFF#32 }) =
      some (133143986145#37, true, [.set 9#32 true]) := by decide
theorem test_tick : got (fun s => (s.dly, s.now)) (exec .tick (inHold 3#37 0#37 (busyAt .emittingSymbol 0 0#2 0#7 1#8))) =
    some (2#37, 1) ∧
    why (exec .tick (inHold 0#37 320#37 (busyAt .emittingSymbol 0 0#2 0#7 1#8))) = some .notSelected := by decide
/-- V60, the third row. -/
theorem test_reset : got (fun s => (s.trace, s.out, s.st, s.period))
    (exec .reset { inHold 220#37 100#37 (busyAt .emittingSymbol 0 0#2 0#7 1#8) with period := 1#32 }) =
      some ([.wait 100, .set 9#32 false], false, .idle, 320#32) := by decide
/-- V60, the third row at the event level: 100 µs into a hold of 320. -/
theorem test_reset_cuts_event_hold : got (fun s => (s.trace, s.now, s.st, s.agenda))
    (step { busyAt .emittingSymbol 0 0#2 0#7 1#8 with agenda := [.resetAfter 100] }) =
      some ([.set 9#32 true, .wait 100, .set 9#32 false], 100, .idle, []) := by decide
theorem test_reset_idle : got (·.trace) (exec .reset (busyAt .idle 0 0#2 0#7 1#8)) = some [] := by decide

/-- R173: in a hold the parts of the block's operations are not enabled. -/
def midHold : State := inHold 9900#37 20#37 (busyAt .syncPulse 11 1#2 0#7 1#8)
theorem test_hold_blocks :
    why (exec .forceLow midHold) = some .notSelected ∧ why (exec .finish midHold) = some .notSelected ∧
    why (exec .gate midHold) = some .notSelected ∧ why (exec .sym0 midHold) = some .notSelected ∧
    why (exec (.encode 5#32) midHold) = some .notSelected ∧ why (exec .encStep midHold) = some .notSelected := by decide
/-- R174: a hold has run out, and its end comes before any time passes. -/
theorem test_hold_end_first : why (exec .sym0 (inHold 0#37 320#37 (busyAt .emittingSymbol 0 0#2 0#7 1#8))) =
      some .notSelected ∧
    why (exec (.hold true 1#5) (inHold 0#37 320#37 (busyAt .emittingSymbol 0 0#2 0#7 1#8))) = some .notSelected := by
  decide
theorem test_hold_lets_host :
    got (·.pin) (exec (.wrPin 4#32) midHold) = some 4#32 ∧ got (·.readData) (exec (.rdStatus 0#32) midHold) = some 1#32 ∧
    why (exec (.start 1#32) midHold) = some .startWhileBusy := by decide

/-! ## Witnesses: states and operands that meet the hypotheses of each statement, clause by clause -/

theorem passes (rep limit : Word) (h : gateAccepts rep limit = true) : GatePasses rep limit :=
  (gateAccepts_iff rep limit).1 h
theorem fails (rep limit : Word) (h : gateAccepts rep limit = false) : ¬ GatePasses rep limit :=
  fun hp => by rw [(gateAccepts_iff rep limit).2 hp] at h; cases h

/-- The gate's boundaries (R133): exponents 0 and 7, a count equal to the limit. -/
theorem witness_gate_passes : GatePasses 0#32 1#32 ∧ GatePasses 7#32 128#32 ∧ GatePasses 6#32 64#32 :=
  ⟨passes _ _ (by decide), passes _ _ (by decide), passes _ _ (by decide)⟩
/-- Exponents -1 and 8, and a count above the limit. -/
theorem witness_gate_fails : ¬ GatePasses 0xFFFFFFFF#32 0xFFFFFFFF#32 ∧ ¬ GatePasses 8#32 0xFFFFFFFF#32 ∧
    ¬ GatePasses 6#32 63#32 ∧ ¬ GatePasses 0#32 0#32 :=
  ⟨fails _ _ (by decide), fails _ _ (by decide), fails _ _ (by decide), fails _ _ (by decide)⟩

/-- An idle machine after a completed request. -/
def idleState : State := { busyAt .idle 11 1#2 0#7 1#8 with out := false, result := .ok, lines := [(9, false)] }
/-- The last low hold of a request of one telegram, about to be taken. -/
def endState : State := busyAt .syncPulse 11 1#2 0#7 1#8
/-- A tick-level hold 100 ticks in (V60). -/
def heldState : State := inHold 220#37 100#37 (busyAt .emittingSymbol 0 0#2 0#7 1#8)

theorem accHolds : AccHoldsTrits 0x141000#24 := by unfold AccHoldsTrits; decide

/-! `ReadStatusReturnsBusyAndResult`, `EveryStepKeepsInvariant`: states that meet the invariant. -/

theorem witness_inv_idle : Inv idleState :=
  ⟨by decide, by decide, fun _ => ⟨rfl, rfl⟩, fun _ => ⟨rfl, rfl⟩, fun h => absurd rfl h,
    fun h => (nomatch h), fun h => (nomatch h), fun h => (nomatch h), fun h => (nomatch h)⟩
theorem witness_inv_end : Inv endState :=
  ⟨by decide, by decide, fun h => (nomatch h), fun h => absurd rfl h,
    fun _ => ⟨⟨0, by decide, rfl⟩, by decide, accHolds, rfl⟩,
    fun _ => by decide, fun h => (nomatch h), fun _ _ => rfl, fun h => (nomatch h)⟩
theorem witness_inv_held : Inv heldState :=
  ⟨by decide, by decide, fun h => (nomatch h), fun h => absurd rfl h,
    fun _ => ⟨⟨0, by decide, rfl⟩, by decide, accHolds, rfl⟩,
    fun h => (nomatch h), fun h => (nomatch h), fun _ h => (nomatch h),
    fun _ => ⟨.inl rfl, rfl, rfl, by decide⟩⟩

/-- `WrittenWordReadsBack`: registers 0 and 4. -/
theorem witness_register_numbers : (0#3).toNat ≤ 4 ∧ (4#3).toNat ≤ 4 := by decide

/-- `ParseForwardsFieldsOrFallbacks`: a malformed field, a missing field, a greatest unsigned value; and the least
value of the signed field. -/
theorem witness_parse_fields :
    readField ['4', '2', '9', '4', '9', '6', '7', '2', '9', '5'] = .value 4294967295 ∧ readField ['x'] = .malformed ∧
    readField ['-', '2', '1', '4', '7', '4', '8', '3', '6', '4', '8'] = .value (-2147483648) ∧
    (0 : Int) ≤ 4294967295 ∧ (4294967295 : Int) < 2 ^ 32 ∧ (-(2 ^ 31) : Int) ≤ -2147483648 :=
  ⟨by decide, by decide, by decide, by norm_num, by norm_num, by norm_num⟩
/-- The lines of R195 and V5, and one with leading, repeated and trailing spaces and tabs. -/
theorem witness_lines :
    IsLineOf ['4'] [['4']] ∧
    IsLineOf ['4', ' ', 'x', ' ', '2', '5', '0', ' ', '2'] [['4'], ['x'], ['2', '5', '0'], ['2']] ∧
    IsLineOf ['9', ' ', '2', '5', '5', ' ', '3', '2', '0', ' ', '3'] [['9'], ['2', '5', '5'], ['3', '2', '0'], ['3']] ∧
    IsLineOf [' ', '\t', '8', ' ', ' ', '6', '\t'] [['8'], ['6']] ∧ IsLineOf [] [] ∧ IsLineOf [' '] [] :=
  ⟨⟨[], [(['4'], [])], by simp⟩,
   ⟨[], [(['4'], [' ']), (['x'], [' ']), (['2', '5', '0'], [' ']), (['2'], [])], by simp⟩,
   ⟨[], [(['9'], [' ']), (['2', '5', '5'], [' ']), (['3', '2', '0'], [' ']), (['3'], [])], by simp⟩,
   ⟨[' ', '\t'], [(['8'], [' ', ' ']), (['6'], ['\t'])], by simp⟩, ⟨[], [], by simp⟩, ⟨[' '], [], by simp⟩⟩
theorem witness_parse_hypotheses : ∃ (text : List Char) (fields : List (List Char)),
    (Instr.parse text).WellFormed = true ∧ IsLineOf text fields ∧ fields.length ≤ 4 ∧
    (∀ j f, fields[j]? = some f → readField f ≠ .outside ∧
      ∀ z, readField f = .value z → -(2 ^ 31) ≤ z ∧ z < (if j < 3 then 2 ^ 32 else 2 ^ 31)) ∧
    fields[0]? = some ['-', '4'] ∧ readField ['-', '4'] = .value (-4) ∧
    fields[1]? = some ['x'] ∧ readField ['x'] = .malformed := by
  refine ⟨['-', '4', ' ', 'x'], [['-', '4'], ['x']], by decide,
    ⟨[], [(['-', '4'], [' ']), (['x'], [])], by simp⟩, by decide, ?_, rfl, by decide, rfl, by decide⟩
  intro j f hf
  match j with
  | 0 =>
    cases hf
    refine ⟨by decide, fun z hz => ?_⟩
    have h4 : readField ['-', '4'] = .value (-4) := by decide
    rw [h4] at hz; cases hz; decide
  | 1 =>
    cases hf
    refine ⟨by decide, fun z hz => ?_⟩
    have hx : readField ['x'] = .malformed := by decide
    rw [hx] at hz; cases hz
  | j + 2 => cases hf
/-- `TextFieldIsSignedDecimal`: digits 0 and 9; a hexadecimal field. -/
theorem witness_text_field : ([0, 9] : List Nat) ≠ [] ∧ (∀ d ∈ ([0, 9] : List Nat), d < 10) ∧
    IsHexField ['-', '0', 'X', '1', 'f'] :=
  ⟨by decide, by decide, ['-'], 'X', ['1', 'f'], rfl, .inr rfl, .inr rfl, by simp, by simp⟩
/-- Its third clause: the spec's own `x` (V5), and the fields next to a decimal one. -/
theorem witness_malformed (f : List Char)
    (_ : f = ['x'] ∨ f = ['4', 'x'] ∨ f = ['-'] ∨ f = ['-', '-', '5'] ∨ f = ['5', '-', '3'] ∨ f = ['0', 'x']) :
    ¬ IsHexField f ∧ (∀ ds : List Nat, ds ≠ [] → (∀ d ∈ ds, d < 10) → f ≠ digitChars ds ∧ f ≠ '-' :: digitChars ds) ∧
    readField f = .malformed := by
  have hd : ∀ ds : List Nat, (∀ d ∈ ds, d < 10) → (digitChars ds).all Char.isDigit = true := by
    intro ds h
    refine List.all_eq_true.2 fun c hc => ?_
    obtain ⟨d, hm, rfl⟩ := List.mem_map.1 hc
    have := h d hm
    interval_cases d <;> decide
  have hf : f.all Char.isDigit = false ∧ (f.head? = some '-' → f.tail = [] ∨ f.tail.all Char.isDigit = false) := by
    rcases ‹f = _ ∨ _› with rfl | rfl | rfl | rfl | rfl | rfl <;> decide
  refine ⟨?_, fun ds hne h => ⟨?_, ?_⟩, ?_⟩
  · rintro ⟨sign, x, ds, hx, rfl | rfl, rfl | rfl, hne, _⟩ <;>
      rcases ‹f = _ ∨ _› with rfl | rfl | rfl | rfl | rfl | rfl <;> simp [hne.symm] at hx
  · rintro rfl
    rw [hd ds h] at hf; cases hf.1
  · rintro rfl
    rcases hf.2 rfl with h0 | h0
    · exact hne (by simpa [digitChars] using h0)
    · rw [List.tail_cons, hd ds h] at h0; cases h0
  · rcases ‹f = _ ∨ _› with rfl | rfl | rfl | rfl | rfl | rfl <;> decide
/-- `ParseRefusesWhatSpecLeavesOut`: a line of five fields; a hexadecimal field; one above the greatest value of an
unsigned and of the signed field; one below what 32 bits hold. -/
theorem witness_parse_outside :
    (Instr.parse ['1', ' ', '1', ' ', '1', ' ', '1', ' ', '1']).WellFormed = true ∧
    IsLineOf ['1', ' ', '1', ' ', '1', ' ', '1', ' ', '1'] [['1'], ['1'], ['1'], ['1'], ['1']] ∧
    4 < ([['1'], ['1'], ['1'], ['1'], ['1']] : List (List Char)).length ∧
    IsLineOf ['0', 'x', '1', 'F'] [['0', 'x', '1', 'F']] ∧ readField ['0', 'x', '1', 'F'] = .outside ∧
    readField ['4', '2', '9', '4', '9', '6', '7', '2', '9', '6'] = .value 4294967296 ∧ ¬ (4294967296 : Int) < 2 ^ 32 ∧
    readField ['2', '1', '4', '7', '4', '8', '3', '6', '4', '8'] = .value 2147483648 ∧ ¬ (2147483648 : Int) < 2 ^ 31 ∧
    readField ['-', '2', '1', '4', '7', '4', '8', '3', '6', '4', '9'] = .value (-2147483649) ∧
    ¬ -(2 ^ 31) ≤ (-2147483649 : Int) :=
  ⟨by decide, ⟨[], [(['1'], [' ']), (['1'], [' ']), (['1'], [' ']), (['1'], [' ']), (['1'], [])], by simp⟩, by decide,
    ⟨[], [(['0', 'x', '1', 'F'], [])], by simp⟩, by decide, by decide, by norm_num, by decide, by norm_num, by decide,
    by norm_num⟩

/-- The failing clauses of `StartSamplesAndGatesRequest`, `TxIsTheRequestFunction`, `GateAcceptsOrRaises`, and of
`UnselectedStepsAreRefused` for `ACCEPT`. -/
theorem witness_rejected : (withRequest 7#32 100#32).st = .idle ∧ (withRequest 7#32 100#32).hact = false ∧
    ¬ GatePasses 7#32 100#32 := ⟨rfl, rfl, fails _ _ (by decide)⟩
/-- The passing clauses of `StartSamplesAndGatesRequest`, `TxIsTheRequestFunction`, `GateAcceptsOrRaises`. -/
theorem witness_accepted : (withRequest 7#32 128#32).st = .idle ∧ (withRequest 7#32 128#32).hact = false ∧
    GatePasses 7#32 128#32 := ⟨rfl, rfl, passes _ _ (by decide)⟩
/-- `StartWhileBusyIsRefused`, and the first clause of `TxIsTheRequestFunction`. -/
theorem witness_busy : endState.st ≠ .idle := by decide

/-- The statements about parts of operations, about `HOLD`, the symbols and `TX`: no hold in progress. -/
theorem witness_no_hold : idleState.hact = false ∧ endState.hact = false := by decide
/-- `HoldBlocksAllButTicks`: each operation that a hold does not block. -/
theorem witness_blocked : heldState.hact = true ∧ heldState.dly ≠ 0#37 ∧ (∃ t, exec .tick heldState = .next t) ∧
    (∃ t, exec .reset heldState = .next t) ∧ (∃ t, exec (.wrPin 4#32) heldState = .next t) ∧
    ∃ t, exec (.parse ['4']) heldState = .next t := ⟨rfl, by decide, ⟨_, rfl⟩, ⟨_, rfl⟩, ⟨_, rfl⟩, ⟨_, rfl⟩⟩
/-- `ResetInputRestoresRegisters`, a hold of the event level that reset cuts: 1 µs into a symbol's hold, at the very end
of it, and in both holds of the sync pulse. -/
theorem witness_reset_cut (s : State) (us : Nat)
    (_ : (s, us) = (busyAt .emittingSymbol 0 0#2 0#7 1#8, 1) ∨ (s, us) = (busyAt .emittingSymbol 0 0#2 0#7 1#8, 320) ∨
      (s, us) = (busyAt .syncPulse 11 0#2 0#7 1#8, 320) ∨ (s, us) = (busyAt .syncPulse 11 1#2 0#7 1#8, 9920)) :
    s.build.timing = .event ∧ s.hact = false ∧
    ((s.st = .emittingSymbol ∧ sentTrit s.build.txOrder s.acc s.i.val ≠ 3) ∨ s.st = .syncPulse) ∧
    0 < us ∧ us * Config.ticksPerUs ≤ currentHoldTicks s := by
  rcases ‹(s, us) = _ ∨ _› with h | h | h | h <;> cases h <;> decide

/-- `EncodeAliasesAboveThreeToTwelve`: the ends of the aliased range, and two equal codes at the end of the injective
one. -/
theorem witness_codes : 531441 ≤ 531441 ∧ 1048575 < 2 ^ 20 ∧ 531440 < 531441 ∧
    encodeAcc (BitVec.ofNat 32 531440) = encodeAcc (BitVec.ofNat 32 531440) := ⟨by decide, by decide, by decide, rfl⟩
/-- `SentTritIsCodeDigit`: the first and the last cursor; `SymbolsPerformFourHolds`: the trits. -/
theorem witness_cursors : 0 < 12 ∧ 11 < 12 ∧ 0 < 3 ∧ 2 < 3 := by decide

/-- `IdleStepChangesNothing`. -/
theorem witness_idle : State.reset.st = .idle ∧ State.reset.hact = false ∧ State.reset.agenda = [] := by decide
/-- `RepeatingResetsCursor`. -/
theorem witness_repeating : (busyAt .repeating 11 1#2 2#7 8#8).st = .repeating ∧
    (busyAt .repeating 11 1#2 2#7 8#8).hact = false := by decide
/-- `EmitPerformsOneHold`: the first hold of a telegram, the last of a symbol, the last of a telegram. -/
theorem witness_emit (i : Fin 12) (h : BitVec 2) (_ : (i, h) = (0, 0#2) ∨ (i, h) = (10, 3#2) ∨ (i, h) = (11, 3#2)) :
    (busyAt .emittingSymbol i h 0#7 8#8).st = .emittingSymbol ∧ (busyAt .emittingSymbol i h 0#7 8#8).hact = false ∧
    (busyAt .emittingSymbol i h 0#7 8#8).build.timing = .event ∧
    sentTrit .lspairFirst (busyAt .emittingSymbol i h 0#7 8#8).acc i.val ≠ 3 :=
  ⟨rfl, rfl, rfl, accHolds i.val i.isLt⟩
/-- `EmitRefusesReservedTrit`. -/
theorem witness_reserved_trit : sentTrit .lspairFirst 3#24 0 = 3 ∧ sentTrit .mspairFirst 0xC00000#24 0 = 3 ∧
    why (exec .emit { busyAt .emittingSymbol 0 0#2 0#7 1#8 with acc := 3#24 }) = some .reservedTrit := by decide
/-- `SyncPerformsOneHold`, `NextAndFinishEndTelegram`: the high hold, the low hold before the last telegram of 128, and
the low hold of the last one. -/
theorem witness_sync :
    (busyAt .syncPulse 11 0#2 0#7 1#8).h = 0#2 ∧ (busyAt .syncPulse 11 0#2 0#7 1#8).build.timing = .event ∧
    (busyAt .syncPulse 11 1#2 126#7 128#8).k.toNat + 1 < (busyAt .syncPulse 11 1#2 126#7 128#8).reps.toNat ∧
    (busyAt .syncPulse 11 1#2 127#7 128#8).k.toNat + 1 = (busyAt .syncPulse 11 1#2 127#7 128#8).reps.toNat ∧
    (busyAt .syncPulse 11 1#2 127#7 128#8).h = 1#2 ∧ (busyAt .syncPulse 11 1#2 127#7 128#8).st = .syncPulse ∧
    (busyAt .syncPulse 11 1#2 127#7 128#8).hact = false := by decide
/-- `HoldEndIsUrgent`, clause by clause: `RESET`, the end of the hold, and that end before a tick. -/
theorem witness_urgent (s : State) (_ : s = inHold 0#37 320#37 (busyAt .emittingSymbol 0 0#2 0#7 1#8)) :
    s.hact = true ∧ s.dly = 0#37 ∧ (∃ t, exec .reset s = .next t) ∧ (∃ t, step s = .next t) ∧
    (∃ t, step { s with agenda := [.sequencer] } = .next t) ∧
    ∃ t, step { s with agenda := [.input (.event .tick)] } = .next t := by
  subst s
  exact ⟨rfl, rfl, ⟨_, rfl⟩, ⟨_, rfl⟩, ⟨_, rfl⟩, ⟨_, rfl⟩⟩
/-- `UnselectedStepsAreRefused`, clause by clause: another state, and a hold in progress. -/
theorem witness_unselected :
    endState.st ≠ .idle ∧ ¬ (endState.st = .repeating ∧ endState.hact = false) ∧
    ¬ (heldState.st = .emittingSymbol ∧ heldState.hact = false) ∧
    ¬ (idleState.st = .syncPulse ∧ idleState.hact = false) ∧
    ¬ (endState.st = .syncPulse ∧ endState.hact = false ∧ endState.h = 1#2 ∧
      endState.k.toNat + 1 < endState.reps.toNat) ∧
    ¬ (midHold.st = .syncPulse ∧ midHold.hact = false ∧ midHold.h = 1#2 ∧
      midHold.k.toNat + 1 = midHold.reps.toNat) ∧
    heldState.hact = true ∧ ({ idleState with hact := true } : State).st = .idle := by decide

/-- `HoldSetsLineAndWaits`. -/
theorem witness_event_level : State.reset.build.timing = .event := rfl
/-- `TickLevelHoldsStartAndBlock`, `TickLevelHoldAgreesWithEventLevel`: a symbol's hold and the sync pulse's. -/
theorem witness_tick_level :
    (atTicks (busyAt .emittingSymbol 0 0#2 0#7 1#8)).build.timing = .tick ∧
    (atTicks (busyAt .emittingSymbol 0 0#2 0#7 1#8)).hact = false ∧
    (atTicks (busyAt .emittingSymbol 0 0#2 0#7 1#8)).agenda = [] ∧
    (atTicks (busyAt .emittingSymbol 0 0#2 0#7 1#8)).st = .emittingSymbol ∧
    sentTrit .lspairFirst (atTicks (busyAt .emittingSymbol 0 0#2 0#7 1#8)).acc 0 ≠ 3 ∧
    (atTicks endState).build.timing = .tick ∧ (atTicks endState).st = .syncPulse ∧ (atTicks endState).agenda = [] ∧
    (atTicks endState).hact = false := by decide
theorem witness_tick_level_next :
    (∃ u, exec .emit (busyAt .emittingSymbol 0 0#2 0#7 1#8) = .next u) ∧ (∃ u, exec .sync endState = .next u) :=
  ⟨⟨_, rfl⟩, ⟨_, rfl⟩⟩
/-- `TickCountsHoldDown`, clause by clause: the last tick of a hold, `Idle`, a hold that has run out, an urgent step. -/
theorem witness_tick :
    (inHold 1#37 319#37 (busyAt .emittingSymbol 0 0#2 0#7 1#8)).hact = true ∧ (1#37 : BitVec 37) ≠ 0#37 ∧
    (State.reset.hact = false ∧ State.reset.st = .idle) ∧
    (inHold 0#37 320#37 (busyAt .emittingSymbol 0 0#2 0#7 1#8)).dly = 0#37 ∧
    (endState.hact = false ∧ endState.st ≠ .idle) := by decide
/-- `HoldEndsWhenDelayIsZero`, clause by clause. -/
theorem witness_hold_ends (s : State) (_ : s = inHold 0#37 320#37 (busyAt .emittingSymbol 11 3#2 0#7 1#8) ∨
      s = inHold 0#37 320#37 (busyAt .syncPulse 11 0#2 0#7 1#8) ∨
      s = inHold 0#37 9920#37 (busyAt .syncPulse 11 1#2 126#7 128#8) ∨
      s = inHold 0#37 9920#37 (busyAt .syncPulse 11 1#2 127#7 128#8)) :
    s.agenda = [] ∧ s.hact = true ∧ s.dly = 0#37 ∧ (s.st = .emittingSymbol ∨ s.st = .syncPulse) := by
  rcases ‹_› with rfl | rfl | rfl | rfl <;> decide

/-- `TelegramHasConstantLength`. -/
theorem witness_twelve_trits : ([.t0, .t1, .t2, .t0, .t1, .t2, .t0, .t1, .t2, .t0, .t1, .t2] : List Trit).length = 12 := rfl
/-- `RequestLastsExactTime`, and with two codes `3^12` apart `RequestTraceDependsOnRequestOnly`. -/
theorem witness_tx_next :
    (∃ u, exec (.tx 9#32 0#32 320#32 7#32) .reset = .next u) ∧ GatePasses 7#32 128#32 ∧ ¬ GatePasses 7#32 100#32 ∧
    (∃ u, exec (.tx 9#32 1#32 320#32 0#32) .reset = .next u) ∧
    (∃ u, exec (.tx 9#32 531442#32 320#32 0#32) idleState = .next u) ∧
    State.reset.repLimit = idleState.repLimit ∧ State.reset.build.txOrder = idleState.build.txOrder ∧
    (1#32).toNat % 2 ^ 20 % 531441 = (531442#32).toNat % 2 ^ 20 % 531441 :=
  ⟨⟨_, rfl⟩, passes _ _ (by decide), fails _ _ (by decide), ⟨_, rfl⟩, ⟨_, rfl⟩, rfl, rfl, by decide⟩
/-- `StateMachineAgreesWithTx`, `TickLevelRequestAgreesWithTx`, `RequestShorthandIsFiveOperations`. -/
theorem witness_request :
    State.reset.st = .idle ∧ State.reset.hact = false ∧ State.reset.build.timing = .event ∧ State.reset.agenda = [] ∧
    (atTicks State.reset).build.timing = .tick ∧ (atTicks State.reset).agenda = [] ∧
    GatePasses State.reset.repeatExp State.reset.repLimit ∧ (∃ a, exec (.start 1#32) State.reset = .next a) ∧
    (∃ a, exec (.start 1#32) (atTicks State.reset) = .next a) :=
  ⟨rfl, rfl, rfl, rfl, rfl, rfl, passes _ _ (by decide), ⟨_, rfl⟩, ⟨_, rfl⟩⟩

/-- `DecodeAndEncodeAgree`, `HostWordSelectsOperation`. -/
theorem witness_encoding : (Instr.start 0xFFFFFFFF#32).WellFormed = true ∧
    decode (.host 0xDFFFFFFFE#36) = .ok (.wrNopCtrl 0xFFFFFFFE#32) ∧ 0 < 16 ∧ 15 < 16 := by decide
/-- `EveryStepKeepsInvariant`, `OnlyResetOrCompletionEndsRequest`, `EndOfRequestLeavesLineLow`: a request that completes,
and the other three ways out of one. -/
theorem witness_step_ends :
    Inv endState ∧ (∃ t, step endState = .next t ∧ t.st = .idle) ∧ endState.st ≠ .idle ∧ endState.h = 1#2 :=
  ⟨witness_inv_end, ⟨_, rfl, rfl⟩, by decide, rfl⟩
theorem witness_step_resets :
    (∃ t, step { heldState with agenda := [.input (.event .reset)] } = .next t ∧ t.st = .idle) ∧
    (∃ t, step { heldState with agenda := [.resetWins (.event .tick)] } = .next t ∧ t.st = .idle) ∧
    (∃ t, step { endState with agenda := [.resetAfter 5] } = .next t ∧ t.st = .idle ∧ t.agenda = []) :=
  ⟨⟨_, rfl, rfl⟩, ⟨_, rfl, rfl⟩, ⟨_, rfl, rfl, rfl⟩⟩
/-- `StepRunsDecodedInput`: an input, a tick that may pass, a tick that must wait. -/
theorem witness_step_runs : decode (.event .tick) = .ok .tick ∧ urgent heldState = false ∧ urgent endState = true := by
  decide
/-- `SequencerTakesSelectedStep`. -/
theorem witness_turns : endState.hact = false ∧ heldState.hact = true ∧ heldState.dly ≠ 0#37 := by decide
/-- `HostWriteCommutesWithSequencer`, `LinesFollowTrace`, `BuildParametersNeverChange`: a step is taken. -/
theorem witness_step_next : endState.agenda = [] ∧ (∃ t, step endState = .next t) ∧
    (∃ t, step State.reset = .next t) ∧ (∀ x, linesRead x State.reset.lines = lastSet x State.reset.trace) :=
  ⟨rfl, ⟨_, rfl⟩, ⟨_, rfl⟩, fun _ => rfl⟩
/-- `RequestInProgressIsImmutable`: a tick in a hold. -/
theorem witness_in_progress : Inv heldState ∧ (∃ t, step heldState = .next t ∧ t.st ≠ .idle) ∧ heldState.st ≠ .idle :=
  ⟨witness_inv_held, ⟨_, rfl, by decide⟩, by decide⟩
/-- `OkIsWrittenAfterFinalForceLow`. -/
theorem witness_ok : endState.result ≠ .ok ∧ (∃ t, exec .sync endState = .next t ∧ t.result = .ok) ∧
    (∃ t, step endState = .next t ∧ t.result = .ok) := ⟨by decide, ⟨_, rfl, rfl⟩, ⟨_, rfl, rfl⟩⟩
/-- `LatchedRequestIsImmutable`: both clauses are met by `START`. -/
theorem witness_latched : ∃ t, exec (.start 1#32) State.reset = .next t ∧
    (t.acc, t.reps) ≠ (State.reset.acc, State.reset.reps) ∧ (t.lPin, t.lPeriod) ≠ (State.reset.lPin, State.reset.lPeriod) :=
  ⟨_, rfl, by decide, by decide⟩
/-- `OnlyHoldsTakeTime`, `TimePassesByWaitsOnly`. -/
theorem witness_time : endState.build.timing = .event ∧ endState.hact = false ∧
    ∃ t, exec .sync endState = .next t ∧ t.now ≠ endState.now := ⟨rfl, rfl, _, rfl, by decide⟩

end Sys2Proof.Tests
end

section
/-! `LINES` AND THE TRACE: every shared operation, and so every operation and every step, keeps `LINES` the latest levels
of the trace (R10, R43, R60). -/

namespace Sys2Proof.Machine

/-- On every line `LINES` holds the level of the latest `Set` that names it. -/
def LinesAgree (s : State) : Prop := ∀ x, linesRead x s.lines = lastSet x s.trace

/-! ## The latest `Set` of the traces that are appended -/

theorem lastSet_append_none {x : Nat} {a b : List TraceEvent} (ha : lastSet x a = none) (hb : lastSet x b = none) :
    lastSet x (a ++ b) = none := by
  rw [lastSet_append, ha, hb]; rfl

theorem lastSet_flatten_none {x : Nat} {traces : List (List TraceEvent)} (h : ∀ a ∈ traces, lastSet x a = none) :
    lastSet x traces.flatten = none := by
  induction traces with
  | nil => rfl
  | cons a r ih =>
    exact lastSet_append_none (h a List.mem_cons_self) (ih fun b hb => h b (List.mem_cons_of_mem a hb))

/-- The telegrams of a request name no line but the request's own (R151). -/
theorem lastSet_telegramsTrace_other {x : Nat} {pin : Word} (hx : pin.toNat ≠ x) (count : Nat) (trits : List Trit)
    (period : Word) : lastSet x (telegramsTrace count pin trits period) = none := by
  have symbol (t : Trit) : lastSet x (symbolTrace pin t period) = none := by
    simp [symbolTrace, holdIndices, lastSet, hx]
  have sync : lastSet x (syncTrace pin period) = none := by simp [syncTrace, lastSet, hx]
  have telegram : lastSet x (telegramTrace pin trits period) = none := by
    refine lastSet_append_none ?_ sync
    rw [List.flatMap_def]
    refine lastSet_flatten_none fun a ha => ?_
    obtain ⟨t, -, rfl⟩ := List.mem_map.1 ha
    exact symbol t
  refine lastSet_flatten_none fun a ha => ?_
  rw [List.eq_of_mem_replicate ha]
  exact telegram

/-! ## The shared operations -/

section
variable {s t : State}

/-- A wait names no line (R62). -/
theorem waitUs_linesAgree (n : Nat) (hs : LinesAgree s) : LinesAgree (waitUs n s) := fun x => by
  simpa [lastSet_append, lastSet] using hs x

/-- `LINES` need only take the last of the levels that an operation gives one line: `events` drive no other (R60). -/
theorem linesAgree_of_set {pin : Word} {level : Level} {events : List TraceEvent} (hs : LinesAgree s)
    (hl : t.lines = linesWrite pin.toNat level s.lines) (ht : t.trace = s.trace ++ events ++ [.set pin level])
    (he : ∀ x, pin.toNat ≠ x → lastSet x events = none) : LinesAgree t := fun x => by
  rw [hl, ht, linesRead_linesWrite, lastSet_append]
  by_cases hx : pin.toNat = x
  · simp [lastSet, hx]
  · simp [lastSet, lastSet_append, hx, Ne.symm hx, he x hx, hs x]

theorem setOutput_linesAgree (pin : Word) (level : Level) (hs : LinesAgree s) : LinesAgree (setOutput pin level s) :=
  linesAgree_of_set (events := []) hs rfl (by simp) fun _ _ => rfl

theorem hostWrite_linesAgree (n : BitVec 3) (v : Word) (hs : LinesAgree s) : LinesAgree (hostWrite n v s) := by
  unfold hostWrite
  split <;> exact hs

theorem holdEvent_linesAgree (l : Level) (m : BitVec 5) (hs : LinesAgree s) : LinesAgree (holdEvent l m s) :=
  waitUs_linesAgree _ (setOutput_linesAgree s.lPin l hs)

theorem runProgram_linesAgree (p : List (Level × BitVec 5)) (hs : LinesAgree s) : LinesAgree (runProgram p s) := by
  induction p generalizing s with
  | nil => exact hs
  | cons d p ih => exact ih (holdEvent_linesAgree d.1 d.2 hs)

theorem emitHeld_linesAgree (hs : LinesAgree s) : LinesAgree (emitHeld s) := waitUs_linesAgree _ hs

theorem gateRequest_linesAgree (hs : LinesAgree s) : LinesAgree (gateRequest s) := by
  unfold gateRequest
  split <;> exact setOutput_linesAgree s.lPin false hs

theorem startRequest_linesAgree (hs : LinesAgree s) (h : startRequest s = .next t) : LinesAgree t := by
  obtain ⟨-, ⟨-, rfl⟩ | ⟨-, rfl⟩⟩ := startRequest_cases h
  all_goals exact setOutput_linesAgree s.pin false hs

theorem afterEmit_linesAgree (hs : LinesAgree s) : LinesAgree (afterEmit s) := by
  rw [afterEmit_frame]; exact hs

theorem afterSync_linesAgree (hs : LinesAgree s) : LinesAgree (afterSync s) := by
  obtain ⟨-, h⟩ | ⟨-, -, h⟩ | ⟨-, -, h⟩ := afterSync_cases s <;> rw [h]
  · exact hs
  · exact hs
  · exact setOutput_linesAgree s.lPin false hs

/-- A sequencer hold at either level, whose position update keeps the lines (R171, R173). -/
theorem sequencerHold_linesAgree (l : Level) (m : BitVec 5) {after : State → State}
    (hafter : ∀ {u}, LinesAgree u → LinesAgree (after u)) (hs : LinesAgree s) :
    LinesAgree (sequencerHold l m after s) := by
  cases hb : s.build.timing with
  | event => rw [sequencerHold_event hb]; exact hafter (holdEvent_linesAgree l m hs)
  | tick => rw [sequencerHold_tick hb]; exact setOutput_linesAgree s.lPin l hs

theorem endHold_linesAgree (hs : LinesAgree s) : LinesAgree (endHold s) := by
  have hw : LinesAgree { emitHeld s with hact := false, held := 0#37 } := emitHeld_linesAgree hs
  unfold endHold afterHold
  split
  · exact hw
  · exact hw
  · exact afterEmit_linesAgree hw
  · exact afterSync_linesAgree hw

theorem cutHold_linesAgree (hs : LinesAgree s) : LinesAgree (cutHold s) := by
  unfold cutHold
  split
  · exact emitHeld_linesAgree hs
  · exact hs

theorem dropLine_linesAgree (hs : LinesAgree s) : LinesAgree (dropLine s) := by
  unfold dropLine
  split
  · exact hs
  · exact setOutput_linesAgree s.lPin false hs

/-- The whole request drives one line, and leaves it low (R151, R150). -/
theorem afterTelegrams_linesAgree (trits : List Trit) (hs : LinesAgree s) : LinesAgree (afterTelegrams trits s) :=
  linesAgree_of_set hs rfl rfl fun _ hx => lastSet_telegramsTrace_other hx s.reps.toNat trits s.lPeriod

/-! ## Operations -/

/-- A guarded operation runs where its condition holds, and only there. -/
theorem guarded_next {c : Prop} [Decidable c] {o : Out} {r : Refusal}
    (h : (if c then o else .refused r) = .next t) : c ∧ o = .next t := by
  split at h
  · exact ⟨‹c›, h⟩
  · cases h

theorem next_linesAgree {u : State} (hu : LinesAgree u) (h : (.next u : Out) = .next t) : LinesAgree t := by
  cases h; exact hu

theorem unlessInHold_linesAgree {u : State} (hu : LinesAgree u) (h : unlessInHold s u = .next t) : LinesAgree t := by
  obtain ⟨-, rfl⟩ := unlessInHold_cases h
  exact hu

theorem execHold_linesAgree {l : Level} {m : BitVec 5} (hs : LinesAgree s) (h : execHold l m s = .next t) :
    LinesAgree t := by
  refine unlessInHold_linesAgree ?_ h
  split
  · exact holdEvent_linesAgree l m hs
  · exact setOutput_linesAgree s.lPin l hs

theorem execEmit_linesAgree (hs : LinesAgree s) (h : execEmit s = .next t) : LinesAgree t := by
  obtain ⟨-, -, hold, -, rfl⟩ := execEmit_cases h
  exact sequencerHold_linesAgree (s := readTrit s) hold.1 hold.2 afterEmit_linesAgree hs

theorem execSync_linesAgree (hs : LinesAgree s) (h : execSync s = .next t) : LinesAgree t := by
  obtain ⟨-, -, rfl⟩ := execSync_cases h
  exact sequencerHold_linesAgree _ _ afterSync_linesAgree hs

theorem execTick_linesAgree (hs : LinesAgree s) (h : execTick s = .next t) : LinesAgree t := by
  obtain ⟨-, ⟨-, rfl⟩ | ⟨-, rfl⟩⟩ := execTick_cases h
  all_goals exact hs

theorem execTx_linesAgree {pin code period rep : Word} (hs : LinesAgree s)
    (h : execTx pin code period rep s = .next t) : LinesAgree t := by
  obtain ⟨-, a, hstart, hrun⟩ := execTx_cases h
  have ha : LinesAgree a := startRequest_linesAgree (s := writeRequest ⟨pin, code, period, rep⟩ s) hs hstart
  obtain ⟨-, rfl⟩ | ⟨-, trits, -, rfl⟩ := hrun
  · exact ha
  · exact afterTelegrams_linesAgree trits ha

theorem execParse_linesAgree {text : List Char} (hs : LinesAgree s) (h : execParse text s = .next t) :
    LinesAgree t := by
  unfold execParse at h
  split at h
  · cases h; exact hs
  · cases h

theorem execReset_linesAgree (hs : LinesAgree s) (h : execReset s = .next t) : LinesAgree t :=
  next_linesAgree (u := resetRegisters (dropLine (cutHold s))) (dropLine_linesAgree (cutHold_linesAgree hs)) h

/-- Every operation keeps `LINES` the latest levels of the trace. -/
theorem exec_linesAgree {i : Instr} (hs : LinesAgree s) (h : exec i s = .next t) : LinesAgree t := by
  cases i with
  | wrPin v | wrCode v | wrPeriod v | wrRepeat v | wrRepLimit v | wrNopCtrl v | wrNopStatus v | wrNopUnused v =>
    exact next_linesAgree (hostWrite_linesAgree _ v hs) h
  | rdPin x | rdCode x | rdPeriod x | rdRepeat x | rdRepLimit x | rdZeroCtrl x | rdStatus x | rdZeroUnused x =>
    exact next_linesAgree (u := hostRead _ s) hs h
  | start v => exact startRequest_linesAgree hs h
  | tx pin code period rep => exact execTx_linesAgree hs h
  | parse text => exact execParse_linesAgree hs h
  | mask code | encode code | encStep | tritsel => exact unlessInHold_linesAgree (by exact hs) h
  | sym0 | sym1 | sym2 => exact unlessInHold_linesAgree (runProgram_linesAgree _ hs) h
  | hold l m => exact execHold_linesAgree hs h
  | emit => exact execEmit_linesAgree hs h
  | sync => exact execSync_linesAgree hs h
  | tick => exact execTick_linesAgree hs h
  | forceLow => exact unlessInHold_linesAgree (setOutput_linesAgree s.lPin false hs) h
  | gate => exact unlessInHold_linesAgree (gateRequest_linesAgree hs) h
  | accept =>
    obtain ⟨-, h⟩ := guarded_next h
    exact unlessInHold_linesAgree (u := acceptRequest s) (setOutput_linesAgree s.lPin false hs) h
  | idle => exact unlessInHold_linesAgree hs (guarded_next h).2
  | repeating => exact next_linesAgree (by exact hs) (guarded_next h).2
  | nextTelegram => exact next_linesAgree (u := goNext s) hs (guarded_next h).2
  | finish =>
    exact next_linesAgree (u := finishRequest s) (setOutput_linesAgree s.lPin false hs) (guarded_next h).2
  | reset => exact execReset_linesAgree hs h

/-! ## Steps -/

/-- A reset is taken where the lines agree, also within a hold of the event level (R243). -/
theorem resetFrom_linesAgree {s₀ : State} (hs : LinesAgree s) (h : ResetFrom s s₀) : LinesAgree s₀ := by
  obtain ⟨w, rest, -, rfl⟩ | ⟨n, rest, -, rfl | ⟨-, -, rfl⟩ | ⟨hold, -, -, -, rfl⟩⟩ := h
  · exact hs
  · exact hs
  · exact hs
  · have hsource : LinesAgree (holdSource { s with agenda := rest }) := by
      unfold holdSource
      split <;> exact hs
    exact setOutput_linesAgree (holdSource { s with agenda := rest }).lPin hold.1 hsource

theorem step_linesAgree (hs : LinesAgree s) (h : step s = .next t) : LinesAgree t := by
  obtain ⟨w, rest, i, -, -, h⟩ | ⟨s₀, hfrom, h⟩ | ⟨ag, -, ⟨-, -, rfl⟩ | ⟨-, -, h⟩ | ⟨-, h⟩⟩ := step_cases h
  · exact exec_linesAgree (s := { s with agenda := rest }) hs h
  · exact exec_linesAgree (resetFrom_linesAgree hs hfrom) h
  · exact endHold_linesAgree (s := { s with agenda := ag }) hs
  · exact exec_linesAgree (s := { s with agenda := ag }) hs h
  · exact exec_linesAgree (s := { s with agenda := ag }) hs h

end

/-- Settles O58: every operation keeps the agreement of `LINES` with the trace, and so does the end of a hold. -/
theorem linesFollowTrace : Obligations.LinesFollowTrace := by
  unfold Obligations.LinesFollowTrace
  intro s t h hs
  exact step_linesAgree hs h

end Sys2Proof.Machine
end

section
/-! THE AGENDA'S HEAD: what `fetch` names where an input is pending. -/

namespace Sys2Proof.Machine

/-- A pending input is fetched, a tick only where the sequencer has no urgent step (R174). -/
theorem fetch_input {s : State} {w : OpWord} {rest : List Turn} (ha : s.agenda = .input w :: rest)
    (hw : w = .event .tick → urgent s = false) : fetch s = fetchWord w { s with agenda := rest } := by
  by_cases ht : w = .event .tick
  · subst ht
    simp [fetch, ha, hw rfl, fetchWord, decode, decodeEvent]
  · simp [fetch, ha]

/-- A pending input that decodes is performed on the rest of the agenda (R97). -/
theorem step_input {s : State} {w : OpWord} {i : Instr} {rest : List Turn} (ha : s.agenda = .input w :: rest)
    (hd : decode w = .ok i) (hw : w = .event .tick → urgent s = false) :
    step s = exec i { s with agenda := rest } := by
  rw [step, fetch_input ha hw, fetchWord, hd]

/-- A tick stays pending while the sequencer takes its urgent step (R174). -/
theorem step_tick_urgent {s : State} {rest : List Turn} (ha : s.agenda = .input (.event .tick) :: rest)
    (hu : urgent s = true) : step s = step { s with agenda := .sequencer :: s.agenda } := by
  have hf : fetch s = sequencerTurn s := by simp [fetch, ha, hu]
  rw [step, hf]
  rfl

/-- Settles O48: the head of the agenda is fetched, and an urgent step goes before a tick. -/
theorem stepRunsDecodedInput : Obligations.StepRunsDecodedInput := by
  unfold Obligations.StepRunsDecodedInput
  intro s w i rest hd
  refine ⟨fun hw => step_input rfl hd hw, ?_⟩
  rintro rfl hu
  exact step_tick_urgent rfl hu

end Sys2Proof.Machine
end

section
/-! THE MACHINE INVARIANT: what `Inv` says in `Idle`, at the start of a telegram, between two holds and in a hold; that
each shared operation leads from one of these to another; and so every step keeps it (R31, R140, R142, R147, R150,
R173, R193). -/

namespace Sys2Proof.Machine

section
variable {s t : State}

/-! ## The invariant by the sequencer's state -/

/-- What holds whatever the sequencer's state: `LINES` is canonical, and what is pending comes from outside. -/
def EnvWf (s : State) : Prop := linesWf s.lines ∧ s.agenda.all turnFromOutside = true

/-- What holds throughout a request, between its holds and in them (R30, R35, R60, R118, R193). -/
structure InRequest (s : State) : Prop where
  env : EnvWf s
  no_result : s.result = .none
  count_pow : ∃ e, e ≤ 7 ∧ s.reps.toNat = 2 ^ e
  telegrams_left : s.k.toNat < s.reps.toNat
  acc_trits : AccHoldsTrits s.acc
  line_level : linesRead s.lPin.toNat s.lines = some s.out

/-- The hold at the sequencer's position is one of a symbol or of the sync pulse, which has two (R140, R142). -/
def AtHold (s : State) : Prop := s.st = .emittingSymbol ∨ (s.st = .syncPulse ∧ s.h.toNat < 2)

theorem Inv.env (hs : Inv s) : EnvWf s := ⟨hs.lines_wf, hs.agenda_outside⟩

theorem setOutput_envWf (line : Word) (l : Level) (hs : EnvWf s) : EnvWf (setOutput line l s) :=
  ⟨setOutput_linesWf line l hs.1, hs.2⟩

theorem Inv.inRequest (hs : Inv s) (hst : s.st ≠ .idle) : InRequest s := by
  obtain ⟨hpow, hleft, htrits, hline⟩ := hs.busy_latched hst
  have hres : s.result = .none := by
    by_contra hr
    exact hst (hs.result_idle hr).1
  exact ⟨hs.env, hres, hpow, hleft, htrits, hline⟩

theorem Inv.atHold (hs : Inv s) (hst : s.st = .emittingSymbol ∨ s.st = .syncPulse) : AtHold s :=
  hst.imp_right fun h => ⟨h, hs.sync_holds h⟩

theorem AtHold.ne_idle (h : AtHold s) : s.st ≠ .idle := by
  obtain hst | ⟨hst, -⟩ := h <;> simp [hst]

/-- In `Idle` the line of a shown result is low, `OUT` is low and there is no hold; nothing else is asked (R150, R193). -/
theorem Inv.of_idle (henv : EnvWf t) (hst : t.st = .idle) (hout : t.out = false)
    (hhact : t.hact = false) (hres : t.result ≠ .none → linesRead t.lPin.toNat t.lines = some false) : Inv t where
  lines_wf := henv.1
  agenda_outside := henv.2
  idle_low _ := ⟨hout, hhact⟩
  result_idle h := ⟨hst, hres h⟩
  busy_latched h := absurd hst h
  sync_holds := by simp [hst]
  between_low := by simp [hst]
  parked_level := by simp [hst]
  hold_level := by simp [hhact]

/-- Before a telegram the line is low (R147). -/
theorem InRequest.inv_of_repeating (h : InRequest s) (hst : s.st = .repeating) (hout : s.out = false)
    (hhact : s.hact = false) : Inv s where
  lines_wf := h.env.1
  agenda_outside := h.env.2
  idle_low := by simp [hst]
  result_idle hr := absurd h.no_result hr
  busy_latched _ := ⟨h.count_pow, h.telegrams_left, h.acc_trits, h.line_level⟩
  sync_holds := by simp [hst]
  between_low _ := ⟨hout, hhact⟩
  parked_level := by simp [hst]
  hold_level := by simp [hhact]

/-- At a hold the line's level says whether the hold has begun (R140, R173). -/
theorem InRequest.inv_of_atHold (h : InRequest s) (hat : AtHold s)
    (hparked : s.hact = false → s.out = decide (s.h.toNat % 2 = 1))
    (hheld : s.hact = true → s.build.timing = .tick ∧ s.out = decide (s.h.toNat % 2 = 0) ∧
      s.dly.toNat + s.held.toNat = currentHoldTicks s) : Inv s where
  lines_wf := h.env.1
  agenda_outside := h.env.2
  idle_low hi := absurd hi hat.ne_idle
  result_idle hr := absurd h.no_result hr
  busy_latched _ := ⟨h.count_pow, h.telegrams_left, h.acc_trits, h.line_level⟩
  sync_holds hs := by simpa [AtHold, hs] using hat
  between_low hr := by simp [AtHold, hr] at hat
  parked_level _ := hparked
  hold_level hhact := ⟨hat.imp_right And.left, hheld hhact⟩

theorem InRequest.inv_of_parked (h : InRequest s) (hat : AtHold s) (hhact : s.hact = false)
    (hout : s.out = decide (s.h.toNat % 2 = 1)) : Inv s :=
  h.inv_of_atHold hat (fun _ => hout) (by simp [hhact])

theorem InRequest.inv_of_held (h : InRequest s) (hat : AtHold s) (htiming : s.build.timing = .tick)
    (hhact : s.hact = true) (hout : s.out = decide (s.h.toNat % 2 = 0))
    (hticks : s.dly.toNat + s.held.toNat = currentHoldTicks s) : Inv s :=
  h.inv_of_atHold hat (by simp [hhact]) fun _ => ⟨htiming, hout, hticks⟩

theorem Inv.withAgenda (hs : Inv s) {ag : List Turn} (ha : ag.all turnFromOutside = true) :
    Inv { s with agenda := ag } := { hs with agenda_outside := ha }

/-- The request's line follows `OUT` (R60). -/
theorem inRequest_setOutput (h : InRequest s) (l : Level) : InRequest (setOutput s.lPin l s) :=
  { h with
    env := setOutput_envWf s.lPin l h.env
    line_level := by simp [linesRead_linesWrite] }

/-! ## The accumulator, holds and their durations -/

/-- `ENC.STEP` shifts a trit in below the others (R111). -/
theorem encIter_accHoldsTrits {x : Temps} (h : AccHoldsTrits x.a) : AccHoldsTrits (encIter x).a := by
  intro i hi
  have ha : (encIter x).a.toNat = x.a.toNat * 4 % 2 ^ 24 + x.work.toNat % 3 := (encStep_spec x.work x.a).2.2
  rw [ha]
  cases i with
  | zero => omega
  | succ j =>
    have hshift : (x.a.toNat * 4 % 2 ^ 24 + x.work.toNat % 3) / 4 = x.a.toNat % (4 ^ j * (4 * 4 ^ (10 - j))) := by
      rw [← pow_succ', ← pow_add, show j + (10 - j + 1) = 11 by omega]
      omega
    rw [pow_succ' 4 j, ← Nat.div_div_eq_div_mul, hshift, Nat.mod_mul_right_div_self, Nat.mod_mul_right_mod]
    exact h j (by omega)

theorem encLoop_accHoldsTrits (n : Nat) : ∀ {x : Temps}, AccHoldsTrits x.a → AccHoldsTrits (encLoop n x).a := by
  induction n with
  | zero => exact fun h => h
  | succ n ih => exact fun h => ih (encIter_accHoldsTrits h)

/-- `ENCODE` gives trits, whatever the code (R118). -/
theorem encTemps_accHoldsTrits (code : Word) (b : BitVec 2) : AccHoldsTrits (encTemps code b).a :=
  encLoop_accHoldsTrits _ fun i _ => by simp

theorem AccHoldsTrits.sentTrit_ne {acc : BitVec 24} (h : AccHoldsTrits acc) (order : TxOrder) (i : Fin 12) :
    sentTrit order acc i.val ≠ 3 := by
  cases order
  · exact h i.val i.isLt
  · exact h (11 - i.val) (by omega)

/-- At a hold the sequencer has one to perform: of the position's level and of the position's duration (R88, R89). -/
theorem AtHold.exists_currentHold (hst : AtHold s) (htrits : AccHoldsTrits s.acc) :
    ∃ m, currentHold s = some (decide (s.h.toNat % 2 = 0), m) ∧
      duration m s.lPeriod * Config.ticksPerUs = currentHoldTicks s := by
  obtain hst | ⟨hst, hh⟩ := hst
  · obtain ⟨m, hhold, hm⟩ := emitHold_cases (htrits.sentTrit_ne s.build.txOrder s.i)
    exact ⟨m, by simp [currentHold, hst, hhold],
      by simp [currentHoldTicks, hst, duration, hm, Nat.mul_assoc]⟩
  · have hlevel : s.h = 0#2 ↔ s.h.toNat % 2 = 0 := by
      rw [← BitVec.toNat_inj, BitVec.toNat_ofNat]
      omega
    have hm : (syncMult s.h).toNat = if s.h = 0#2 then 1 else 31 := by
      unfold syncMult
      split <;> rfl
    exact ⟨syncMult s.h, by simp [currentHold, hst, syncHold, hlevel],
      by simp [currentHoldTicks, hst, duration, hm, Nat.mul_assoc]⟩

/-- The hold's duration fits in `DLY` (R172). -/
theorem AtHold.ticks_lt (hst : AtHold s) (htrits : AccHoldsTrits s.acc) : currentHoldTicks s < 2 ^ 37 := by
  obtain ⟨m, -, hticks⟩ := hst.exists_currentHold htrits
  rw [← hticks, Config.ticksPerUs, Nat.mul_one]
  exact duration_lt m s.lPeriod

/-! ## The shared operations -/

/-- The host's registers, the read result, and what counts free values and time stand in no clause. -/
theorem hostWrite_inv (hs : Inv s) (n : BitVec 3) (v : Word) : Inv (hostWrite n v s) := by
  unfold hostWrite
  split <;> exact { hs with }

theorem hostRead_inv (hs : Inv s) (n : BitVec 3) : Inv (hostRead n s) := { hs with }

theorem writeRequest_inv (hs : Inv s) (r : Request) : Inv (writeRequest r s) := { hs with }

/-- A line just forced low reads low (R131). -/
theorem linesRead_forceLow (s : State) : linesRead s.lPin.toNat (forceLow s).lines = some false := by
  simp [linesRead_linesWrite]

/-- `START` leaves a request at its first telegram, or `Idle` (R192, R134, R213). -/
theorem startRequest_inv (hs : Inv s) (h : startRequest s = .next t) : Inv t := by
  obtain ⟨hst, hcases⟩ := startRequest_cases h
  obtain ⟨hout, hhact⟩ := hs.idle_low hst
  have henv : EnvWf (forceLow (sampleRequest s)) := setOutput_envWf (s := s) s.pin false hs.env
  have hlow := linesRead_forceLow (sampleRequest s)
  obtain ⟨⟨h0, h7, -⟩, rfl⟩ | ⟨-, rfl⟩ := hcases
  · have hreps : (acceptRequest (sampleRequest s)).reps.toNat = 2 ^ s.repeatExp.toInt.toNat := reps_toNat h0 h7
    have hreq : InRequest (acceptRequest (sampleRequest s)) :=
      { env := henv
        no_result := rfl
        count_pow := ⟨_, by omega, hreps⟩
        telegrams_left := by rw [hreps]; exact Nat.two_pow_pos _
        acc_trits := encTemps_accHoldsTrits s.code s.tmp.t
        line_level := hlow }
    exact hreq.inv_of_repeating rfl rfl hhact
  · exact .of_idle henv rfl rfl hhact fun _ => hlow

theorem finishRequest_inv (h : InRequest s) (hhact : s.hact = false) : Inv (finishRequest s) :=
  .of_idle (setOutput_envWf s.lPin false h.env) rfl rfl hhact fun _ => linesRead_forceLow s

theorem goNext_inv (h : InRequest s) (hk : s.k.toNat + 1 < s.reps.toNat) (hout : s.out = false)
    (hhact : s.hact = false) : Inv (goNext s) := by
  obtain ⟨e, he, hreps⟩ := h.count_pow
  have hle : 2 ^ e ≤ 2 ^ 7 := Nat.pow_le_pow_right (by decide) he
  have hk' : (s.k + 1#7).toNat = s.k.toNat + 1 := by bv_omega
  have hreq : InRequest (goNext s) := { h with telegrams_left := hk'.trans_lt hk }
  exact hreq.inv_of_repeating rfl hout hhact

/-- After a symbol's hold, as whole states: at its next hold, or at the first hold of what follows (R140, R141). -/
theorem afterEmit_cases (s : State) :
    (s.h.toNat < 3 ∧ afterEmit s = { s with h := s.h + 1#2 }) ∨
    (s.h.toNat = 3 ∧ ∃ st i, (st = s.st ∨ st = .syncPulse) ∧
      afterEmit s = { s with st := st, i := i, h := 0#2 }) := by
  unfold afterEmit
  split
  · exact .inl ⟨‹_›, rfl⟩
  · have hh : s.h.toNat = 3 := by omega
    split
    · exact .inr ⟨hh, _, _, .inl rfl, rfl⟩
    · exact .inr ⟨hh, _, _, .inr rfl, rfl⟩

theorem afterEmit_inv (h : InRequest s) (hst : s.st = .emittingSymbol) (hhact : s.hact = false)
    (hout : s.out = decide (s.h.toNat % 2 = 0)) : Inv (afterEmit s) := by
  obtain ⟨hh, heq⟩ | ⟨hh, st, i, hst', heq⟩ := afterEmit_cases s <;> rw [heq]
  · have hnext : (s.h + 1#2).toNat = s.h.toNat + 1 := by bv_omega
    have hreq : InRequest { s with h := s.h + 1#2 } := { h with }
    refine hreq.inv_of_parked (.inl hst) hhact (hout.trans ?_)
    simp only [hnext, decide_eq_decide]
    omega
  · have hreq : InRequest { s with st := st, i := i, h := 0#2 } := { h with }
    have hat : AtHold { s with st := st, i := i, h := 0#2 } := hst'.imp (·.trans hst) fun h => ⟨h, Nat.zero_lt_two⟩
    exact hreq.inv_of_parked hat hhact (hout.trans (by simp [hh]))

theorem afterSync_inv (h : InRequest s) (hst : s.st = .syncPulse) (hh : s.h.toNat < 2) (hhact : s.hact = false)
    (hout : s.out = decide (s.h.toNat % 2 = 0)) : Inv (afterSync s) := by
  have hlow : s.h ≠ 0#2 → s.out = false := fun h0 => by
    have : s.h.toNat ≠ 0 := fun h => h0 (BitVec.eq_of_toNat_eq h)
    simpa [hout] using (by omega : s.h.toNat % 2 = 1)
  obtain ⟨h0, heq⟩ | ⟨h0, hk, heq⟩ | ⟨-, -, heq⟩ := afterSync_cases s <;> rw [heq]
  · have hreq : InRequest { s with h := 1#2 } := { h with }
    exact hreq.inv_of_parked (.inr ⟨hst, Nat.one_lt_two⟩) hhact (hout.trans (by simp [h0]))
  · exact goNext_inv h hk (hlow h0) hhact
  · exact finishRequest_inv h hhact

/-- The end of a hold, at either level, leads to the next hold, the next telegram or `Idle` (R136, R142, R174). -/
theorem afterHold_inv (h : InRequest s) (hst : AtHold s) (hhact : s.hact = false)
    (hout : s.out = decide (s.h.toNat % 2 = 0)) : Inv (afterHold s) := by
  obtain hst | ⟨hst, hh⟩ := hst
  · simpa [afterHold, hst] using afterEmit_inv h hst hhact hout
  · simpa [afterHold, hst] using afterSync_inv h hst hh hhact hout

theorem endHold_inv (hs : Inv s) (hhact : s.hact = true) : Inv (endHold s) := by
  obtain ⟨hst, -, hout, -⟩ := hs.hold_level hhact
  have hat := hs.atHold hst
  have hreq : InRequest { emitHeld s with hact := false, held := 0#37 } := { hs.inRequest hat.ne_idle with }
  exact afterHold_inv hreq hat rfl hout

/-- The hold of the sequencer's position: performed whole at the event level, started at the tick level (R171, R173). -/
theorem sequencerHold_inv {hold : Level × BitVec 5} {after : State → State} (hs : Inv s) (hat : AtHold s)
    (hhact : s.hact = false) (hhold : currentHold s = some hold)
    (hafter : ∀ u : State, u.st = s.st → after u = afterHold u) : Inv (sequencerHold hold.1 hold.2 after s) := by
  have hreq := hs.inRequest hat.ne_idle
  obtain ⟨m, hcurrent, hticks⟩ := hat.exists_currentHold hreq.acc_trits
  obtain rfl : hold = (decide (s.h.toNat % 2 = 0), m) := Option.some.inj (hhold.symm.trans hcurrent)
  cases hb : s.build.timing with
  | event =>
    have hdone : InRequest (holdEvent (decide (s.h.toNat % 2 = 0)) m s) := { inRequest_setOutput hreq _ with }
    rw [sequencerHold_event hb, hafter (holdEvent _ _ s) rfl]
    exact afterHold_inv hdone hat hhact rfl
  | tick =>
    have hstarted : InRequest (holdStart (decide (s.h.toNat % 2 = 0)) m s) := { inRequest_setOutput hreq _ with }
    have hdly : (holdStart (decide (s.h.toNat % 2 = 0)) m s).dly.toNat = currentHoldTicks s := by
      rw [holdStart_dly, BitVec.toNat_ofNat, hticks]
      exact Nat.mod_eq_of_lt (hat.ticks_lt hreq.acc_trits)
    rw [sequencerHold_tick hb]
    exact hstarted.inv_of_held hat hb rfl rfl hdly

/-! ## Operations -/

theorem execTick_inv (hs : Inv s) (h : execTick s = .next t) : Inv t := by
  obtain ⟨hurgent, ⟨hhact, rfl⟩ | ⟨-, rfl⟩⟩ := execTick_cases h
  · obtain ⟨hst, htiming, hout, hticks⟩ := hs.hold_level hhact
    have hat := hs.atHold hst
    have hreq := hs.inRequest hat.ne_idle
    have hlt := hat.ticks_lt hreq.acc_trits
    have hleft : s.dly.toNat ≠ 0 := fun h0 => by
      simp [urgent, hhact, BitVec.eq_of_toNat_eq (y := 0#37) h0] at hurgent
    have hticked : InRequest (tickHold s) := { hreq with }
    refine hticked.inv_of_held hat htiming hhact hout (Eq.trans ?_ hticks)
    rw [tickHold_dly, tickHold_held]
    bv_omega
  · exact { hs with }

theorem execRepeating_inv (hs : Inv s) (h : execRepeating s = .next t) : Inv t := by
  obtain ⟨⟨hst, hhact⟩, h⟩ := guarded_next h
  cases h
  have hreq : InRequest { s with i := 0, h := 0#2, st := .emittingSymbol } :=
    { hs.inRequest (by simp [hst]) with }
  exact hreq.inv_of_parked (.inl rfl) hhact (hs.between_low hst).1

theorem execEmit_inv (hs : Inv s) (h : execEmit s = .next t) : Inv t := by
  obtain ⟨hst, hhact, hold, hhold, rfl⟩ := execEmit_cases h
  have hread : Inv (readTrit s) := { hs with }
  have hcurrent : currentHold s = some hold := by simpa [currentHold, hst] using hhold
  exact sequencerHold_inv hread (.inl hst) hhact hcurrent fun u hu => by simp [afterHold, hu.trans hst]

theorem execSync_inv (hs : Inv s) (h : execSync s = .next t) : Inv t := by
  obtain ⟨hst, hhact, rfl⟩ := execSync_cases h
  have hcurrent : currentHold s = some (syncHold s) := by simp [currentHold, hst]
  exact sequencerHold_inv hs (hs.atHold (.inr hst)) hhact hcurrent fun u hu => by simp [afterHold, hu.trans hst]

theorem execTx_inv {pin code period rep : Word} (hs : Inv s) (h : execTx pin code period rep s = .next t) : Inv t := by
  obtain ⟨hhact, a, hstart, hrun⟩ := execTx_cases h
  have ha : Inv a := startRequest_inv (writeRequest_inv hs _) hstart
  obtain ⟨-, rfl⟩ | ⟨hst, trits, -, rfl⟩ := hrun
  · exact ha
  · have hreq := ha.inRequest hst
    have hhact' : a.hact = false := by
      obtain ⟨-, ⟨-, rfl⟩ | ⟨-, rfl⟩⟩ := startRequest_cases hstart <;> exact hhact
    exact .of_idle (setOutput_envWf a.lPin false hreq.env) rfl rfl hhact' fun _ => linesRead_forceLow a

theorem execParse_inv {text : List Char} (hs : Inv s) (h : execParse text s = .next t) : Inv t := by
  unfold execParse at h
  split at h
  · cases h; exact { hs with }
  · cases h

theorem cutHold_envWf (hs : EnvWf s) : EnvWf (cutHold s) := by
  unfold cutHold
  split <;> exact hs

theorem dropLine_envWf (hs : EnvWf s) : EnvWf (dropLine s) := by
  unfold dropLine
  split
  · exact hs
  · exact setOutput_envWf s.lPin false hs

/-- `RESET` leads to `Idle` from every state, asking nothing of the sequencer's (R240). -/
theorem execReset_inv (hs : EnvWf s) (h : execReset s = .next t) : Inv t := by
  cases h
  have henv : EnvWf (resetRegisters (dropLine (cutHold s))) := dropLine_envWf (cutHold_envWf hs)
  exact .of_idle henv rfl rfl rfl fun hr => absurd rfl hr

/-- A `HOST` word performs a write, a read or a `START` (R93). -/
theorem exec_decodeHost (w : BitVec 36) (s : State) :
    (∃ n v, exec (decodeHost w) s = .next (hostWrite n v s)) ∨
    (∃ n, exec (decodeHost w) s = .next (hostRead n s)) ∨
    exec (decodeHost w) s = startRequest s := by
  unfold decodeHost
  split
  case h_6 =>
    dsimp only
    split
    · exact .inr (.inr rfl)
    · exact .inl ⟨5#3, _, rfl⟩
  case h_1 | h_2 | h_3 | h_4 | h_5 | h_7 | h_8 => exact .inl ⟨_, _, rfl⟩
  case h_9 | h_10 | h_11 | h_12 | h_13 | h_14 | h_15 | h_16 => exact .inr (.inl ⟨_, rfl⟩)

/-- What the outside world gives the block keeps the invariant (R9). -/
theorem input_inv {w : OpWord} {i : Instr} (hw : fromOutside w = true) (hd : decode w = .ok i) (hs : Inv s)
    (h : exec i s = .next t) : Inv t := by
  unfold fromOutside at hw
  split at hw
  case h_1 w =>
    cases hd
    obtain ⟨n, v, hexec⟩ | ⟨n, hexec⟩ | hexec := exec_decodeHost w s <;> rw [hexec] at h
    · cases h; exact hostWrite_inv hs n v
    · cases h; exact hostRead_inv hs n
    · exact startRequest_inv hs h
  case h_2 w => cases hd; exact execTx_inv hs h
  case h_3 text =>
    simp only [decode] at hd
    split at hd
    · cases hd; exact execParse_inv hs h
    · cases hd
  case h_4 => cases hd; exact execTick_inv hs h
  case h_5 => cases hd; exact execReset_inv hs.env h
  all_goals cases hw

/-- The step that each `STATE` selects keeps the invariant (R92). -/
theorem sequencerStep_inv (hs : Inv s) (h : exec (match s.st with
    | .idle => .idle | .repeating => .repeating | .emittingSymbol => .emit | .syncPulse => .sync) s = .next t) :
    Inv t := by
  cases hst : s.st <;> rw [hst] at h
  case idle =>
    obtain ⟨-, rfl⟩ := unlessInHold_cases (guarded_next h).2
    exact hs
  case repeating => exact execRepeating_inv hs h
  case emittingSymbol => exact execEmit_inv hs h
  case syncPulse => exact execSync_inv hs h

/-! ## Steps -/

/-- What is left of the agenda comes from outside; so does a reset that is still to come. -/
theorem TurnAgenda.outside {ag : List Turn} (h : TurnAgenda s ag) (hs : s.agenda.all turnFromOutside = true) :
    ag.all turnFromOutside = true := by
  obtain hsuffix | ⟨n, k, rest, hn, rfl⟩ := h
  · simp only [List.all_eq_true] at hs ⊢
    exact fun turn hturn => hs turn (hsuffix.subset hturn)
  · rw [hn] at hs
    exact hs

/-- A reset is taken where `LINES` is canonical, also within a hold of the event level (R243). -/
theorem ResetFrom.envWf {s₀ : State} (h : ResetFrom s s₀) (hs : EnvWf s) : EnvWf s₀ := by
  obtain ⟨hl, ha⟩ := hs
  obtain ⟨w, rest, hag, rfl⟩ | ⟨n, rest, hag, rfl | ⟨-, -, rfl⟩ | ⟨hold, -, -, -, rfl⟩⟩ := h
  all_goals
    rw [hag, List.all_cons, Bool.and_eq_true] at ha
    have hrest : EnvWf { s with agenda := rest } := ⟨hl, ha.2⟩
  · exact hrest
  · exact hrest
  · exact hrest
  · have hsource : EnvWf (holdSource { s with agenda := rest }) := by
      unfold holdSource
      split <;> exact hrest
    exact setOutput_envWf (holdSource { s with agenda := rest }).lPin hold.1 hsource

theorem step_inv (hs : Inv s) (h : step s = .next t) : Inv t := by
  obtain ⟨w, rest, i, hag, hd, h⟩ | ⟨s₀, hfrom, h⟩ | ⟨ag, hturn, h⟩ := step_cases h
  · have ha := hs.agenda_outside
    rw [hag, List.all_cons, Bool.and_eq_true] at ha
    exact input_inv ha.1 hd (hs.withAgenda ha.2) h
  · exact execReset_inv (hfrom.envWf hs.env) h
  · have hs' : Inv { s with agenda := ag } := hs.withAgenda (hturn.outside hs.agenda_outside)
    obtain ⟨hhact, -, rfl⟩ | ⟨-, -, h⟩ | ⟨-, h⟩ := h
    · exact endHold_inv hs' hhact
    · exact execTick_inv hs' h
    · exact sequencerStep_inv hs' h

end

/-- Settles O2: after reset the machine is in `Idle`, with no line named and nothing pending. -/
theorem resetStateMeetsInvariant : Obligations.ResetStateMeetsInvariant := by
  unfold Obligations.ResetStateMeetsInvariant
  exact .of_idle ⟨linesWf_reset, rfl⟩ rfl rfl rfl fun hr => absurd rfl hr

/-- Settles O47: in `Idle`, at the start of a telegram, between two holds and in a hold, each operation leads to one of
these four, and so does the end of a hold. -/
theorem everyStepKeepsInvariant : Obligations.EveryStepKeepsInvariant := by
  unfold Obligations.EveryStepKeepsInvariant
  intro s t hs h
  exact step_inv hs h

end Sys2Proof.Machine
end

section
/-! THE REGISTER FILE: a `HOST` word (R93) performed by the step that finds it pending, and what a read returns after a
write (R20, R190, R191). -/

namespace Sys2Proof.Machine

section
variable {s : State} {rest : List Turn}

theorem hostWrite_agenda (n : BitVec 3) (v : Word) (s : State) : (hostWrite n v s).agenda = s.agenda := by
  unfold hostWrite
  split <;> rfl

theorem registerNumber_cases (n : BitVec 3) :
    n = 0#3 ∨ n = 1#3 ∨ n = 2#3 ∨ n = 3#3 ∨ n = 4#3 ∨ n = 5#3 ∨ n = 6#3 ∨ n = 7#3 := by
  revert n; decide

theorem writableRegister_cases {n : BitVec 3} (hn : n.toNat ≤ 4) :
    n = 0#3 ∨ n = 1#3 ∨ n = 2#3 ∨ n = 3#3 ∨ n = 4#3 := by
  revert n; decide

/-- A register reads as last written, and a write leaves every other register alone (R20, R66). -/
theorem hostReadValue_hostWrite {n : BitVec 3} (hn : n.toNat ≤ 4) (m : BitVec 3) (v : Word) (s : State) :
    hostReadValue m (hostWrite n v s) = if m = n then v else hostReadValue m s := by
  obtain rfl | rfl | rfl | rfl | rfl := writableRegister_cases hn <;>
    obtain rfl | rfl | rfl | rfl | rfl | rfl | rfl | rfl := registerNumber_cases m <;> rfl

/-- The step that finds a `HOST` word with `W = 1` pending writes the register it names (R93, R190). -/
theorem step_hostWrite {n : BitVec 3} (hn : n.toNat ≤ 4) {v : Word}
    (ha : s.agenda = .input (.host (1#1 ++ n ++ v)) :: rest) :
    step s = .next (hostWrite n v { s with agenda := rest }) := by
  have hd := Laws.RoundTrip.decode_hostWord (1#1 ++ n) v
  obtain rfl | rfl | rfl | rfl | rfl := writableRegister_cases hn <;> rw [step_input ha hd nofun] <;> rfl

/-- The step that finds a `HOST` word with `W = 0` pending reads the register it names (R93, R191). -/
theorem step_hostRead {m : BitVec 3} {x : Word} (ha : s.agenda = .input (.host (0#1 ++ m ++ x)) :: rest) :
    step s = .next (hostRead m { s with agenda := rest }) := by
  have hd := Laws.RoundTrip.decode_hostWord (0#1 ++ m) x
  obtain rfl | rfl | rfl | rfl | rfl | rfl | rfl | rfl := registerNumber_cases m <;>
    rw [step_input ha hd nofun] <;> rfl

end

/-- Settles O1: each register of `State.reset` is the value R46 gives, and `STATUS` shows neither flag. -/
theorem resetStateHoldsSpecifiedValues : Obligations.ResetStateHoldsSpecifiedValues := by
  unfold Obligations.ResetStateHoldsSpecifiedValues
  decide

/-- Settles O6: the two words run as a register write and a register read. -/
theorem writtenWordReadsBack : Obligations.WrittenWordReadsBack := by
  unfold Obligations.WrittenWordReadsBack
  intro s n m v x rest hn
  refine ⟨_, _, _, step_hostWrite hn rfl, step_hostRead (hostWrite_agenda n v _), step_hostRead rfl, ?_, rfl⟩
  exact hostReadValue_hostWrite hn m v { s with agenda := .input (.host (0#1 ++ m ++ x)) :: rest }

end Sys2Proof.Machine
end

section
/-! THE LATCHED REQUEST: `ACC`, `REPS`, `L_PIN` and `L_PERIOD` (R35, R36, R39, R40), and which operations write them. -/

namespace Sys2Proof.Machine

/-- What `START` latches: the telegram's trits, the count, the line and the period (R35, R36, R39, R40). -/
def latchedRequest (s : State) : BitVec 24 × BitVec 8 × Word × Word := (s.acc, s.reps, s.lPin, s.lPeriod)

/-- The operations that write some of the latched request: `START`, its parts, `TX`, `ENCODE` and `RESET`. -/
def writesRequest : Instr → Bool
  | .start _ | .tx _ _ _ _ | .gate | .accept | .encode _ | .reset => true
  | _ => false

section
variable {s t : State}

theorem hostWrite_latchedRequest (n : BitVec 3) (v : Word) (s : State) :
    latchedRequest (hostWrite n v s) = latchedRequest s := by
  unfold hostWrite
  split <;> rfl

theorem runProgram_latchedRequest (p : List (Level × BitVec 5)) (s : State) :
    latchedRequest (runProgram p s) = latchedRequest s := by
  induction p generalizing s with
  | nil => rfl
  | cons d p ih => exact ih (holdEvent d.1 d.2 s)

theorem afterEmit_latchedRequest (s : State) : latchedRequest (afterEmit s) = latchedRequest s := by
  rw [afterEmit_frame]; rfl

theorem afterSync_latchedRequest (s : State) : latchedRequest (afterSync s) = latchedRequest s := by
  obtain ⟨-, h⟩ | ⟨-, -, h⟩ | ⟨-, -, h⟩ := afterSync_cases s <;> rw [h] <;> rfl

theorem sequencerHold_latchedRequest {after : State → State} (l : Level) (m : BitVec 5)
    (hafter : ∀ u, latchedRequest (after u) = latchedRequest u) (s : State) :
    latchedRequest (sequencerHold l m after s) = latchedRequest s := by
  unfold sequencerHold
  split
  · exact hafter (holdEvent l m s)
  · rfl

theorem unlessInHold_latchedRequest {u : State} (hu : latchedRequest u = latchedRequest s)
    (h : unlessInHold s u = .next t) : latchedRequest t = latchedRequest s := by
  obtain ⟨-, rfl⟩ := unlessInHold_cases h
  exact hu

theorem next_latchedRequest {u : State} (hu : latchedRequest u = latchedRequest s) (h : (.next u : Out) = .next t) :
    latchedRequest t = latchedRequest s := by
  cases h; exact hu

theorem execHold_latchedRequest {l : Level} {m : BitVec 5} (h : execHold l m s = .next t) :
    latchedRequest t = latchedRequest s := by
  refine unlessInHold_latchedRequest ?_ h
  split <;> rfl

theorem execEmit_latchedRequest (h : execEmit s = .next t) : latchedRequest t = latchedRequest s := by
  obtain ⟨-, -, hold, -, rfl⟩ := execEmit_cases h
  exact sequencerHold_latchedRequest hold.1 hold.2 afterEmit_latchedRequest (readTrit s)

theorem execSync_latchedRequest (h : execSync s = .next t) : latchedRequest t = latchedRequest s := by
  obtain ⟨-, -, rfl⟩ := execSync_cases h
  exact sequencerHold_latchedRequest _ _ afterSync_latchedRequest s

theorem execTick_latchedRequest (h : execTick s = .next t) : latchedRequest t = latchedRequest s := by
  obtain ⟨-, ⟨-, rfl⟩ | ⟨-, rfl⟩⟩ := execTick_cases h <;> rfl

theorem execParse_latchedRequest {text : List Char} (h : execParse text s = .next t) :
    latchedRequest t = latchedRequest s := by
  unfold execParse at h
  split at h
  · cases h; rfl
  · cases h

/-- Every other operation leaves the latched request alone (R73). -/
theorem exec_latchedRequest {i : Instr} (hi : writesRequest i = false) (h : exec i s = .next t) :
    latchedRequest t = latchedRequest s := by
  cases i with
  | start v | tx pin code period rep | gate | accept | encode code | reset => cases hi
  | wrPin v | wrCode v | wrPeriod v | wrRepeat v | wrRepLimit v | wrNopCtrl v | wrNopStatus v | wrNopUnused v =>
    exact next_latchedRequest (hostWrite_latchedRequest _ v s) h
  | rdPin x | rdCode x | rdPeriod x | rdRepeat x | rdRepLimit x | rdZeroCtrl x | rdStatus x | rdZeroUnused x =>
    exact next_latchedRequest (u := hostRead _ s) rfl h
  | parse text => exact execParse_latchedRequest h
  | mask code | encStep | tritsel | forceLow => exact unlessInHold_latchedRequest (by rfl) h
  | sym0 | sym1 | sym2 => exact unlessInHold_latchedRequest (runProgram_latchedRequest _ s) h
  | hold l m => exact execHold_latchedRequest h
  | emit => exact execEmit_latchedRequest h
  | sync => exact execSync_latchedRequest h
  | tick => exact execTick_latchedRequest h
  | idle => exact unlessInHold_latchedRequest rfl (guarded_next h).2
  | repeating => exact next_latchedRequest (by rfl) (guarded_next h).2
  | nextTelegram => exact next_latchedRequest (u := goNext s) rfl (guarded_next h).2
  | finish => exact next_latchedRequest (u := finishRequest s) rfl (guarded_next h).2

theorem gateRequest_line (s : State) :
    ((gateRequest s).lPin, (gateRequest s).lPeriod) = (s.lPin, s.lPeriod) := by
  unfold gateRequest
  split <;> rfl

/-- The parts of `START`, and `ENCODE`, leave the line and the period alone: `START` itself samples them (R192). -/
theorem exec_line {i : Instr} (hi : i = .gate ∨ i = .accept ∨ ∃ code, i = .encode code) (h : exec i s = .next t) :
    (t.lPin, t.lPeriod) = (s.lPin, s.lPeriod) := by
  obtain rfl | rfl | ⟨code, rfl⟩ := hi
  · obtain ⟨-, rfl⟩ := unlessInHold_cases h
    exact gateRequest_line s
  · obtain ⟨-, rfl⟩ := unlessInHold_cases (guarded_next h).2
    rfl
  · obtain ⟨-, rfl⟩ := unlessInHold_cases h
    rfl

end

/-- Settles O53: the six operations that write the latched request are told apart by which half of it they write. -/
theorem latchedRequestIsImmutable : Obligations.LatchedRequestIsImmutable := by
  unfold Obligations.LatchedRequestIsImmutable
  intro i s t h
  cases hi : writesRequest i with
  | false =>
    have hkept := exec_latchedRequest hi h
    simp only [latchedRequest, Prod.mk.injEq] at hkept
    obtain ⟨hacc, hreps, hpin, hperiod⟩ := hkept
    exact ⟨fun hne => absurd (by rw [hacc, hreps]) hne, fun hne => absurd (by rw [hpin, hperiod]) hne⟩
  | true =>
    cases i with
    | start v | tx pin code period rep | reset => simp
    | gate | accept | encode code =>
      exact ⟨fun _ => by simp, fun hne => absurd (exec_line (by simp) h) hne⟩
    | _ => cases hi

end Sys2Proof.Machine
end

section
/-! WITHIN A REQUEST: what START latched stays, whatever comes from outside while `STATE` is not `Idle` (R73, R70). -/

namespace Sys2Proof.Machine

section
variable {s t : State}

theorem endHold_latchedRequest (s : State) : latchedRequest (endHold s) = latchedRequest s := by
  unfold endHold afterHold
  split
  · rfl
  · rfl
  · exact afterEmit_latchedRequest _
  · exact afterSync_latchedRequest _

/-- An input that writes the latched request is taken in `Idle`, or leads there (R250, R240). -/
theorem input_latchedRequest {w : OpWord} {i : Instr} (hw : fromOutside w = true) (hd : decode w = .ok i)
    (hs : s.st ≠ .idle) (ht : t.st ≠ .idle) (h : exec i s = .next t) : latchedRequest t = latchedRequest s := by
  unfold fromOutside at hw
  split at hw
  case h_1 w =>
    cases hd
    obtain ⟨n, v, hexec⟩ | ⟨n, hexec⟩ | hexec := exec_decodeHost w s <;> rw [hexec] at h
    · exact next_latchedRequest (hostWrite_latchedRequest n v s) h
    · exact next_latchedRequest (u := hostRead n s) rfl h
    · exact absurd (startRequest_cases h).1 hs
  case h_2 w =>
    cases hd
    obtain ⟨-, a, hstart, -⟩ := execTx_cases h
    exact absurd (startRequest_cases hstart).1 hs
  case h_3 text =>
    simp only [decode] at hd
    split at hd
    · cases hd; exact execParse_latchedRequest h
    · cases hd
  case h_4 => cases hd; exact execTick_latchedRequest h
  case h_5 => cases hd; cases h; exact absurd rfl ht
  all_goals cases hw

/-- None of the steps that `STATE` selects writes the latched request (R92). -/
theorem sequencerStep_latchedRequest {st : SeqState} (h : exec (match st with
    | .idle => .idle | .repeating => .repeating | .emittingSymbol => .emit | .syncPulse => .sync) s = .next t) :
    latchedRequest t = latchedRequest s :=
  exec_latchedRequest (by cases st <;> rfl) h

theorem step_latchedRequest (hag : s.agenda.all turnFromOutside = true) (hs : s.st ≠ .idle) (ht : t.st ≠ .idle)
    (h : step s = .next t) : latchedRequest t = latchedRequest s := by
  obtain ⟨w, rest, i, hhead, hd, h⟩ | ⟨s₀, -, h⟩ | ⟨ag, -, ⟨-, -, rfl⟩ | ⟨-, -, h⟩ | ⟨-, h⟩⟩ := step_cases h
  · rw [hhead, List.all_cons, Bool.and_eq_true] at hag
    exact input_latchedRequest (s := { s with agenda := rest }) hag.1 hd hs ht h
  · cases h; exact absurd rfl ht
  · exact endHold_latchedRequest { s with agenda := ag }
  · exact execTick_latchedRequest (s := { s with agenda := ag }) h
  · exact sequencerStep_latchedRequest (s := { s with agenda := ag }) h

end

/-- Settles O54: a step within a request is one of the sequencer's or an input that leaves the latched request alone. -/
theorem requestInProgressIsImmutable : Obligations.RequestInProgressIsImmutable := by
  unfold Obligations.RequestInProgressIsImmutable
  intro s t hinv h hs ht
  simpa [latchedRequest] using step_latchedRequest hinv.agenda_outside hs ht h

end Sys2Proof.Machine
end

section
/-! HOST WRITES BESIDE THE SEQUENCER: a write changes the five host registers, which no step of the sequencer reads or
writes (R70, R217, R253). -/

namespace Sys2Proof.Machine

/-- Each host register taken through `f`, by its number (R20). -/
def onRegisters (f : BitVec 3 → Word → Word) (s : State) : State :=
  { s with
    pin := f 0#3 s.pin, code := f 1#3 s.code, period := f 2#3 s.period
    repeatExp := f 3#3 s.repeatExp, repLimit := f 4#3 s.repLimit }

theorem hostWrite_eq_onRegisters (n : BitVec 3) (v : Word) (s : State) :
    hostWrite n v s = onRegisters (fun m x => if m = n then v else x) s := by
  obtain rfl | rfl | rfl | rfl | rfl | rfl | rfl | rfl := registerNumber_cases n <;> rfl

/-! ## The shared operations of the sequencer's step -/

section
variable {s t : State} (f : BitVec 3 → Word → Word)

theorem afterEmit_onRegisters (s : State) : afterEmit (onRegisters f s) = onRegisters f (afterEmit s) := by
  unfold afterEmit
  rw [apply_ite (onRegisters f), apply_dite (onRegisters f)]
  rfl

theorem afterSync_onRegisters (s : State) : afterSync (onRegisters f s) = onRegisters f (afterSync s) := by
  unfold afterSync
  rw [apply_ite (onRegisters f), apply_ite (onRegisters f)]
  rfl

theorem sequencerHold_onRegisters (l : Level) (m : BitVec 5) {after : State → State}
    (hafter : ∀ u, after (onRegisters f u) = onRegisters f (after u)) (s : State) :
    sequencerHold l m after (onRegisters f s) = onRegisters f (sequencerHold l m after s) := by
  cases hb : s.build.timing with
  | event =>
    rw [sequencerHold_event hb, sequencerHold_event (s := onRegisters f s) hb]
    exact hafter (holdEvent l m s)
  | tick =>
    rw [sequencerHold_tick hb, sequencerHold_tick (s := onRegisters f s) hb]
    rfl

theorem afterHold_onRegisters (s : State) : afterHold (onRegisters f s) = onRegisters f (afterHold s) := by
  cases hst : s.st with
  | idle | repeating => simp [afterHold, onRegisters, hst]
  | emittingSymbol => simpa [afterHold, onRegisters, hst] using afterEmit_onRegisters f s
  | syncPulse => simpa [afterHold, onRegisters, hst] using afterSync_onRegisters f s

theorem endHold_onRegisters (s : State) : endHold (onRegisters f s) = onRegisters f (endHold s) :=
  afterHold_onRegisters f { emitHeld s with hact := false, held := 0#37 }

/-! ## The sequencer's steps -/

theorem execTick_onRegisters (h : execTick s = .next t) :
    execTick (onRegisters f s) = .next (onRegisters f t) := by
  obtain ⟨hurgent, hcases⟩ := execTick_cases h
  have hurgent' : ¬ urgent (onRegisters f s) = true := ne_true_of_eq_false hurgent
  rw [execTick, if_neg hurgent']
  obtain ⟨hhact, rfl⟩ | ⟨hhact, rfl⟩ := hcases
  · exact if_pos hhact
  · exact if_neg (ne_true_of_eq_false hhact)

theorem execIdle_onRegisters (h : execIdle s = .next t) : execIdle (onRegisters f s) = .next (onRegisters f t) := by
  obtain ⟨hst, h⟩ := guarded_next h
  obtain ⟨hhact, rfl⟩ := unlessInHold_cases h
  exact (if_pos hst).trans (unlessInHold_next hhact _)

theorem execRepeating_onRegisters (h : execRepeating s = .next t) :
    execRepeating (onRegisters f s) = .next (onRegisters f t) := by
  obtain ⟨hc, h⟩ := guarded_next h
  cases h
  exact if_pos hc

theorem execEmit_onRegisters (h : execEmit s = .next t) : execEmit (onRegisters f s) = .next (onRegisters f t) := by
  obtain ⟨hst, hhact, hold, hhold, rfl⟩ := execEmit_cases h
  have hhold' : emitHold (onRegisters f s) = some hold := hhold
  rw [execEmit, if_pos ⟨hst, hhact⟩, hhold']
  exact congrArg Host.Outcome.next
    (sequencerHold_onRegisters f hold.1 hold.2 (afterEmit_onRegisters f) (readTrit s))

theorem execSync_onRegisters (h : execSync s = .next t) : execSync (onRegisters f s) = .next (onRegisters f t) := by
  obtain ⟨hst, hhact, rfl⟩ := execSync_cases h
  rw [execSync, if_pos ⟨hst, hhact⟩]
  exact congrArg Host.Outcome.next (sequencerHold_onRegisters f _ _ (afterSync_onRegisters f) s)

/-- With nothing pending a hold in progress ends or counts down a tick (R173, R174). -/
theorem step_inHold (ha : s.agenda = []) (hh : s.hact = true) :
    step s = if s.dly = 0#37 then .next (endHold s) else execTick s := by
  by_cases hd : s.dly = 0#37 <;> simp [step, fetch, ha, sequencerTurn_eq, hh, hd, exec]

theorem step_onRegisters (ha : s.agenda = []) (h : step s = .next t) :
    step (onRegisters f s) = .next (onRegisters f t) := by
  cases hh : s.hact with
  | true =>
    rw [step_inHold ha hh] at h
    rw [step_inHold (s := onRegisters f s) ha hh]
    by_cases hd : s.dly = 0#37
    · rw [if_pos hd] at h
      cases h
      exact (if_pos hd).trans (congrArg Host.Outcome.next (endHold_onRegisters f s))
    · rw [if_neg hd] at h
      exact (if_neg hd).trans (execTick_onRegisters f h)
  | false =>
    rw [step_sequencer ha hh] at h
    rw [step_sequencer (s := onRegisters f s) ha hh, show (onRegisters f s).st = s.st from rfl]
    cases hst : s.st <;> rw [hst] at h
    case idle => exact execIdle_onRegisters f h
    case repeating => exact execRepeating_onRegisters f h
    case emittingSymbol => exact execEmit_onRegisters f h
    case syncPulse => exact execSync_onRegisters f h

/-- A write of any register passes through a step of the sequencer (R70, R217). -/
theorem step_after_hostWrite (n : BitVec 3) (v : Word) (ha : s.agenda = []) (h : step s = .next t) :
    step (hostWrite n v s) = .next (hostWrite n v t) := by
  rw [hostWrite_eq_onRegisters, hostWrite_eq_onRegisters]
  exact step_onRegisters _ ha h

end

/-- Settles O50: no step of the sequencer reads or writes a host register. -/
theorem hostWriteCommutesWithSequencer : Obligations.HostWriteCommutesWithSequencer := by
  unfold Obligations.HostWriteCommutesWithSequencer
  intro s t v i ha h hi
  obtain rfl | rfl | rfl | rfl | rfl := hi
  all_goals exact ⟨_, _, rfl, rfl, step_after_hostWrite _ v ha h⟩

end Sys2Proof.Machine
end

section
/-! TIME AND THE TRACE: at the event level the trace grows by the events of an operation, and `NOW` by their waits (R62,
R13). -/

namespace Sys2Proof.Machine

/-- From `s` to `t` the trace only grows, and `NOW` advances by the waits it grows by. -/
def TimeFollowsTrace (s t : State) : Prop :=
  ∃ events, t.trace = s.trace ++ events ∧ t.now = s.now + totalWait events * Config.ticksPerUs

section
variable {s t u : State}

/-- What leaves the trace and `NOW` alone takes no time. -/
theorem TimeFollowsTrace.of_eq (htrace : t.trace = s.trace) (hnow : t.now = s.now) : TimeFollowsTrace s t :=
  ⟨[], by simpa using htrace, by simpa [totalWait] using hnow⟩

theorem TimeFollowsTrace.trans (hst : TimeFollowsTrace s t) (htu : TimeFollowsTrace t u) : TimeFollowsTrace s u := by
  obtain ⟨a, ha, hna⟩ := hst
  obtain ⟨b, hb, hnb⟩ := htu
  exact ⟨a ++ b, by rw [hb, ha, List.append_assoc], by rw [hnb, hna, totalWait_append]; ring⟩

/-! ## The shared operations -/

theorem setOutput_timeFollowsTrace (line : Word) (level : Level) (s : State) :
    TimeFollowsTrace s (setOutput line level s) :=
  ⟨[.set line level], rfl, rfl⟩

theorem waitUs_timeFollowsTrace (n : Nat) (s : State) : TimeFollowsTrace s (waitUs n s) :=
  ⟨[.wait n], rfl, rfl⟩

theorem hostWrite_timeFollowsTrace (n : BitVec 3) (v : Word) (s : State) : TimeFollowsTrace s (hostWrite n v s) := by
  rw [hostWrite_eq_onRegisters]
  exact .of_eq rfl rfl

theorem holdEvent_timeFollowsTrace (l : Level) (m : BitVec 5) (s : State) : TimeFollowsTrace s (holdEvent l m s) :=
  (setOutput_timeFollowsTrace s.lPin l s).trans
    (waitUs_timeFollowsTrace (duration m s.lPeriod) (setOutput s.lPin l s))

theorem runProgram_timeFollowsTrace (p : List (Level × BitVec 5)) (s : State) :
    TimeFollowsTrace s (runProgram p s) := by
  induction p generalizing s with
  | nil => exact .of_eq rfl rfl
  | cons d p ih => exact (holdEvent_timeFollowsTrace d.1 d.2 s).trans (ih (holdEvent d.1 d.2 s))

theorem gateRequest_timeFollowsTrace (s : State) : TimeFollowsTrace s (gateRequest s) := by
  unfold gateRequest
  split <;> exact setOutput_timeFollowsTrace s.lPin false s

theorem startRequest_timeFollowsTrace (h : startRequest s = .next t) : TimeFollowsTrace s t := by
  obtain ⟨-, h⟩ := guarded_next h
  cases h
  exact gateRequest_timeFollowsTrace (sampleRequest s)

theorem afterEmit_timeFollowsTrace (s : State) : TimeFollowsTrace s (afterEmit s) := by
  rw [afterEmit_frame]
  exact .of_eq rfl rfl

theorem afterSync_timeFollowsTrace (s : State) : TimeFollowsTrace s (afterSync s) := by
  obtain ⟨-, h⟩ | ⟨-, -, h⟩ | ⟨-, -, h⟩ := afterSync_cases s <;> rw [h]
  · exact .of_eq rfl rfl
  · exact .of_eq rfl rfl
  · exact setOutput_timeFollowsTrace s.lPin false s

/-- The hold of a sequencer step at the event level, and the position update after it (R136, R142). -/
theorem sequencerHold_timeFollowsTrace {after : State → State} (l : Level) (m : BitVec 5)
    (htiming : s.build.timing = .event) (hafter : ∀ u, TimeFollowsTrace u (after u)) :
    TimeFollowsTrace s (sequencerHold l m after s) := by
  rw [sequencerHold_event htiming]
  exact (holdEvent_timeFollowsTrace l m s).trans (hafter (holdEvent l m s))

/-- A whole request takes the time of its telegrams; its final force-low takes none (R151). -/
theorem afterTelegrams_timeFollowsTrace (trits : List Trit) (s : State) :
    TimeFollowsTrace s (afterTelegrams trits s) := by
  have hsent : TimeFollowsTrace s
      { s with
        trace := s.trace ++ telegramsTrace s.reps.toNat s.lPin trits s.lPeriod
        now := s.now + totalWait (telegramsTrace s.reps.toNat s.lPin trits s.lPeriod) * Config.ticksPerUs } :=
    ⟨_, rfl, rfl⟩
  exact hsent.trans (setOutput_timeFollowsTrace s.lPin false _)

theorem dropLine_timeFollowsTrace (s : State) : TimeFollowsTrace s (dropLine s) := by
  unfold dropLine
  split
  · exact .of_eq rfl rfl
  · exact setOutput_timeFollowsTrace s.lPin false s

/-! ## Operations -/

theorem unlessInHold_timeFollowsTrace (hu : TimeFollowsTrace s u) (h : unlessInHold s u = .next t) :
    TimeFollowsTrace s t := by
  obtain ⟨-, rfl⟩ := unlessInHold_cases h
  exact hu

theorem next_timeFollowsTrace (hu : TimeFollowsTrace s u) (h : (.next u : Out) = .next t) :
    TimeFollowsTrace s t := by
  cases h; exact hu

theorem execHold_timeFollowsTrace {l : Level} {m : BitVec 5} (htiming : s.build.timing = .event)
    (h : execHold l m s = .next t) : TimeFollowsTrace s t := by
  rw [execHold, htiming] at h
  exact unlessInHold_timeFollowsTrace (holdEvent_timeFollowsTrace l m s) h

theorem execEmit_timeFollowsTrace (htiming : s.build.timing = .event) (h : execEmit s = .next t) :
    TimeFollowsTrace s t := by
  obtain ⟨-, -, hold, -, rfl⟩ := execEmit_cases h
  exact sequencerHold_timeFollowsTrace (s := readTrit s) hold.1 hold.2 htiming afterEmit_timeFollowsTrace

theorem execSync_timeFollowsTrace (htiming : s.build.timing = .event) (h : execSync s = .next t) :
    TimeFollowsTrace s t := by
  obtain ⟨-, -, rfl⟩ := execSync_cases h
  exact sequencerHold_timeFollowsTrace _ _ htiming afterSync_timeFollowsTrace

theorem execTx_timeFollowsTrace {pin code period rep : Word} (h : execTx pin code period rep s = .next t) :
    TimeFollowsTrace s t := by
  obtain ⟨-, a, hstart, hrun⟩ := execTx_cases h
  have ha : TimeFollowsTrace s a := startRequest_timeFollowsTrace (s := writeRequest ⟨pin, code, period, rep⟩ s) hstart
  obtain ⟨-, rfl⟩ | ⟨-, trits, -, rfl⟩ := hrun
  · exact ha
  · exact ha.trans (afterTelegrams_timeFollowsTrace trits a)

theorem execParse_timeFollowsTrace {text : List Char} (h : execParse text s = .next t) : TimeFollowsTrace s t := by
  unfold execParse at h
  split at h
  · cases h; exact .of_eq rfl rfl
  · cases h

/-- With no hold to cut, `RESET` only drops the line (R240, R243). -/
theorem execReset_timeFollowsTrace (hhact : s.hact = false) (h : execReset s = .next t) : TimeFollowsTrace s t := by
  have hcut : cutHold s = s := by simp [cutHold, hhact]
  rw [execReset, hcut] at h
  exact next_timeFollowsTrace (u := resetRegisters (dropLine s)) (dropLine_timeFollowsTrace s) h

/-- At the event level every operation but `TICK` shows in the trace the time it takes. -/
theorem exec_timeFollowsTrace {i : Instr} (htiming : s.build.timing = .event) (hhact : s.hact = false)
    (hi : i ≠ .tick) (h : exec i s = .next t) : TimeFollowsTrace s t := by
  have low : TimeFollowsTrace s (forceLow s) := setOutput_timeFollowsTrace s.lPin false s
  cases i with
  | tick => exact absurd rfl hi
  | wrPin v | wrCode v | wrPeriod v | wrRepeat v | wrRepLimit v | wrNopCtrl v | wrNopStatus v | wrNopUnused v =>
    exact next_timeFollowsTrace (hostWrite_timeFollowsTrace _ v s) h
  | rdPin x | rdCode x | rdPeriod x | rdRepeat x | rdRepLimit x | rdZeroCtrl x | rdStatus x | rdZeroUnused x =>
    exact next_timeFollowsTrace (u := hostRead _ s) (.of_eq rfl rfl) h
  | start v => exact startRequest_timeFollowsTrace h
  | tx pin code period rep => exact execTx_timeFollowsTrace h
  | parse text => exact execParse_timeFollowsTrace h
  | mask code | encode code | encStep | tritsel =>
    exact unlessInHold_timeFollowsTrace (.of_eq (by rfl) (by rfl)) h
  | sym0 | sym1 | sym2 => exact unlessInHold_timeFollowsTrace (runProgram_timeFollowsTrace _ s) h
  | hold l m => exact execHold_timeFollowsTrace htiming h
  | emit => exact execEmit_timeFollowsTrace htiming h
  | sync => exact execSync_timeFollowsTrace htiming h
  | forceLow => exact unlessInHold_timeFollowsTrace low h
  | gate => exact unlessInHold_timeFollowsTrace (gateRequest_timeFollowsTrace s) h
  | accept => exact unlessInHold_timeFollowsTrace (u := acceptRequest s) low (guarded_next h).2
  | idle => exact unlessInHold_timeFollowsTrace (.of_eq rfl rfl) (guarded_next h).2
  | repeating => exact next_timeFollowsTrace (.of_eq (by rfl) (by rfl)) (guarded_next h).2
  | nextTelegram => exact next_timeFollowsTrace (u := goNext s) (.of_eq rfl rfl) (guarded_next h).2
  | finish => exact next_timeFollowsTrace (u := finishRequest s) low (guarded_next h).2
  | reset => exact execReset_timeFollowsTrace hhact h

end

/-- Settles O57: at the event level every wait that takes time is appended to the trace. -/
theorem timePassesByWaitsOnly : Obligations.TimePassesByWaitsOnly := by
  unfold Obligations.TimePassesByWaitsOnly
  intro i s t htiming hhact hi h
  exact exec_timeFollowsTrace htiming hhact hi h

end Sys2Proof.Machine
end

section
/-! DECODER AND ENCODER: the encoder gives back the bits of every form that decodes, format by format (R80 to R93), and
the table of `HOST` words (R93). -/

namespace Sys2Proof

/-- What the form decodes to, if anything, is well formed and encodes to the form: no bit is dropped (R80). -/
def EncodesBack (w : OpWord) : Prop := ∀ i, decode w = .ok i → i.WellFormed = true ∧ encode i = w

theorem EncodesBack.of_decode {w : OpWord} {i : Instr} (hd : decode w = .ok i) (hi : i.WellFormed = true)
    (he : encode i = w) : EncodesBack w := fun j hj => by
  cases hd.symm.trans hj
  exact ⟨hi, he⟩

theorem EncodesBack.of_error {w : OpWord} {e : DecodeError} (hd : decode w = .error e) : EncodesBack w := fun j hj => by
  cases hd.symm.trans hj

/-! ## `HOST` (R93) -/

/-- The top four bits of a `HOST` word are `W` and a register number. -/
theorem hostHeader_cases (wn : BitVec 4) : ∃ n : BitVec 3, wn = 1#1 ++ n ∨ wn = 0#1 ++ n := by
  revert wn; decide

theorem host_eq_hostWord (w : BitVec 36) : OpWord.host w = hostWord (w.extractLsb' 32 4) (w.extractLsb' 0 32) := by
  rw [hostWord, BitVec.extractLsb'_append_extractLsb'_eq_extractLsb' (Nat.zero_add 32).symm, BitVec.extractLsb'_eq_self]

/-- What a write of `CTRL` decodes to is told by the `START` bit (R93). -/
theorem ctrlWrite_encodesBack (v : Word) : EncodesBack (hostWord 0b1101#4 v) := by
  cases hv : v.getLsbD 0 with
  | true =>
    have hwf : (Instr.start v).WellFormed = true := hv
    exact .of_decode (Laws.RoundTrip.start v hwf) hwf rfl
  | false =>
    have hwf : (Instr.wrNopCtrl v).WellFormed = true := congrArg (!·) hv
    exact .of_decode (Laws.RoundTrip.wrNopCtrl v hwf) hwf rfl

/-- But for a write of `CTRL`, `W` and the register number alone tell the transaction. -/
theorem hostWord_encodesBack (wn : BitVec 4) (v : Word) : EncodesBack (hostWord wn v) := by
  have hd := Laws.RoundTrip.decode_hostWord wn v
  obtain ⟨n, rfl | rfl⟩ := hostHeader_cases wn <;>
    obtain rfl | rfl | rfl | rfl | rfl | rfl | rfl | rfl := Machine.registerNumber_cases n
  case inl.inr.inr.inr.inr.inr.inl => exact ctrlWrite_encodesBack v
  all_goals exact .of_decode hd rfl rfl

/-- The number `W << 35 | n << 32 | v` (R93). -/
theorem host_ofNat_eq_hostWord (wn : Nat) (v : Word) :
    OpWord.host (BitVec.ofNat 36 (wn * 2 ^ 32 + v.toNat)) = hostWord (BitVec.ofNat 4 wn) v := by
  have hv := v.isLt
  refine congrArg OpWord.host (BitVec.eq_of_toNat_eq ?_)
  rw [Laws.RoundTrip.append_toNat, BitVec.toNat_ofNat, BitVec.toNat_ofNat]
  omega

theorem startBit_iff (v : Word) : v.getLsbD 0 = true ↔ v.toNat % 2 = 1 := by
  rw [← BitVec.testBit_toNat, Nat.testBit_zero, decide_eq_true_iff]

/-! ## The other formats -/

theorem req_fields_append (w : BitVec 128) :
    w.extractLsb' 96 32 ++ w.extractLsb' 64 32 ++ w.extractLsb' 32 32 ++ w.extractLsb' 0 32 = w := by
  rw [BitVec.extractLsb'_append_extractLsb'_eq_extractLsb' (by rfl : 96 = 64 + 32),
    BitVec.extractLsb'_append_extractLsb'_eq_extractLsb' (by rfl : 64 = 32 + 32),
    BitVec.extractLsb'_append_extractLsb'_eq_extractLsb' (by rfl : 32 = 0 + 32), BitVec.extractLsb'_eq_self]

theorem hold_fields_append (w : BitVec 6) : BitVec.ofBool (w.getLsbD 5) ++ w.extractLsb' 0 5 = w := by
  revert w; decide

theorem twoBits_cases (w : BitVec 2) : w = 0b00#2 ∨ w = 0b01#2 ∨ w = 0b10#2 ∨ w = 0b11#2 := by
  revert w; decide

/-- The reserved trit code decodes to nothing (R87, R94). -/
theorem trit_encodesBack (w : BitVec 2) : EncodesBack (.trit w) := by
  obtain rfl | rfl | rfl | rfl := twoBits_cases w
  case inr.inr.inr => exact .of_error (e := .reservedTrit) rfl
  all_goals exact .of_decode rfl rfl rfl

/-- Every state code selects a step (R92). -/
theorem seq_encodesBack (w : BitVec 2) : EncodesBack (.seq w) := by
  obtain rfl | rfl | rfl | rfl := twoBits_cases w <;> exact .of_decode rfl rfl rfl

theorem event_encodesBack (e : Event) : EncodesBack (.event e) := by
  cases e <;> exact .of_decode rfl rfl rfl

/-- A line with a line end decodes to nothing (R195, D16). -/
theorem line_encodesBack (text : List Char) : EncodesBack (.line text) := by
  by_cases hone : (text.all fun c => !isLineEnd c) = true
  · exact .of_decode (if_pos hone) hone rfl
  · exact .of_error (if_neg hone)

/-! ## Both directions -/

theorem encodesBack (w : OpWord) : EncodesBack w := by
  cases w with
  | host w => exact host_eq_hostWord w ▸ hostWord_encodesBack _ _
  | req w => exact .of_decode rfl rfl (congrArg OpWord.req (req_fields_append w))
  | maskCode w | encodeCode w => exact .of_decode rfl rfl rfl
  | trit w => exact trit_encodesBack w
  | hold w => exact .of_decode rfl rfl (congrArg OpWord.hold (hold_fields_append w))
  | seq w => exact seq_encodesBack w
  | line text => exact line_encodesBack text
  | event e => exact event_encodesBack e

/-- What the encoder gives for a well-formed operation decodes to it. -/
theorem decode_encode (i : Instr) : i.WellFormed = true → decode (encode i) = .ok i := by
  cases i with
  | wrPin v => exact Laws.RoundTrip.wrPin v
  | wrCode v => exact Laws.RoundTrip.wrCode v
  | wrPeriod v => exact Laws.RoundTrip.wrPeriod v
  | wrRepeat v => exact Laws.RoundTrip.wrRepeat v
  | wrRepLimit v => exact Laws.RoundTrip.wrRepLimit v
  | start v => exact Laws.RoundTrip.start v
  | wrNopCtrl v => exact Laws.RoundTrip.wrNopCtrl v
  | wrNopStatus v => exact Laws.RoundTrip.wrNopStatus v
  | wrNopUnused v => exact Laws.RoundTrip.wrNopUnused v
  | rdPin x => exact Laws.RoundTrip.rdPin x
  | rdCode x => exact Laws.RoundTrip.rdCode x
  | rdPeriod x => exact Laws.RoundTrip.rdPeriod x
  | rdRepeat x => exact Laws.RoundTrip.rdRepeat x
  | rdRepLimit x => exact Laws.RoundTrip.rdRepLimit x
  | rdZeroCtrl x => exact Laws.RoundTrip.rdZeroCtrl x
  | rdStatus x => exact Laws.RoundTrip.rdStatus x
  | rdZeroUnused x => exact Laws.RoundTrip.rdZeroUnused x
  | hold l m => exact Laws.RoundTrip.hold l m
  | tx pin code period rep => exact Laws.RoundTrip.tx pin code period rep
  | parse text => exact Laws.RoundTrip.parse text
  | _ => exact fun _ => rfl

/-- Settles O44: the encoder's round trip operation by operation, the decoder's format by format. -/
theorem decodeAndEncodeAgree : Obligations.DecodeAndEncodeAgree := by
  unfold Obligations.DecodeAndEncodeAgree
  exact ⟨decode_encode, encodesBack⟩

/-- Settles O45: the number is `{W, n}` before `v`, and each of its sixteen values is a row of the table. -/
theorem hostWordSelectsOperation : Obligations.HostWordSelectsOperation := by
  unfold Obligations.HostWordSelectsOperation
  intro wn v hwn
  simp only [host_ofNat_eq_hostWord, ← startBit_iff]
  interval_cases wn <;> exact Laws.RoundTrip.decode_hostWord _ v

/-- Settles O46: the decoder run on the nine words. -/
theorem writtenOutWordsDecode : Obligations.WrittenOutWordsDecode := by
  unfold Obligations.WrittenOutWordsDecode
  decide

end Sys2Proof
end

section
/-! THE TRITS OF A CODE: `ENC.STEP` shifts each digit in below the earlier ones, so the accumulator's pairs are the code's
base-3 digits, the first one extracted in the highest pair (R111, R113, R114, R118). -/

namespace Sys2Proof.Machine

/-- The digit of one `ENC.STEP` is the lowest pair (R111). -/
theorem encIter_lowest_pair (x : Temps) : (encIter x).a.toNat % 4 = x.work.toNat % 3 := by
  have ha : (encIter x).a.toNat = x.a.toNat * 4 % 2 ^ 24 + x.work.toNat % 3 := (encStep_spec x.work x.a).2.2
  omega

/-- The pairs before it move up by one (R111). -/
theorem encIter_shifted_pair (x : Temps) {i : Nat} (hi : i + 1 < 12) :
    (encIter x).a.toNat / 4 ^ (i + 1) % 4 = x.a.toNat / 4 ^ i % 4 := by
  have ha : (encIter x).a.toNat = x.a.toNat * 4 % 2 ^ 24 + x.work.toNat % 3 := (encStep_spec x.work x.a).2.2
  have hpairs : (encIter x).a.toNat / 4 = x.a.toNat % (4 ^ i * (4 * 4 ^ (10 - i))) := by
    rw [← pow_succ', ← pow_add, show i + (10 - i + 1) = 11 by omega]
    omega
  rw [pow_succ' 4 i, ← Nat.div_div_eq_div_mul, hpairs, Nat.mod_mul_right_div_self, Nat.mod_mul_right_mod]

/-- `j` steps move a pair up by `j`. -/
theorem encLoop_shifted_pair (j : Nat) {i : Nat} : ∀ x : Temps, i + j < 12 →
    (encLoop j x).a.toNat / 4 ^ (i + j) % 4 = x.a.toNat / 4 ^ i % 4 := by
  induction j generalizing i with
  | zero => exact fun _ _ => rfl
  | succ j ih =>
    intro x hij
    have hmoved := ih (i := i + 1) (encIter x) (by omega)
    rw [Nat.add_right_comm, Nat.add_assoc] at hmoved
    rw [encLoop, hmoved, encIter_shifted_pair x (by omega)]

/-- Of `j` steps, the one with `i` more after it left its digit in pair `i` (R113). -/
theorem encLoop_digit_pair (j : Nat) {i : Nat} (hi : i < 12) : ∀ x : Temps, i < j →
    (encLoop j x).a.toNat / 4 ^ i % 4 = x.work.toNat / 3 ^ (j - 1 - i) % 3 := by
  induction j with
  | zero => exact fun _ hij => absurd hij (Nat.not_lt_zero i)
  | succ j ih =>
    intro x hij
    obtain hlt | rfl := Nat.lt_or_eq_of_le (Nat.le_of_lt_succ hij)
    · have hwork : (encIter x).work.toNat = x.work.toNat / 3 := (encStep_spec x.work x.a).2.1
      rw [encLoop, ih (encIter x) hlt, hwork, Nat.div_div_eq_div_mul, ← pow_succ',
        show j - 1 - i + 1 = j + 1 - 1 - i by omega]
    · have hfirst := encLoop_shifted_pair i (i := 0) (encIter x) (by omega)
      rw [Nat.zero_add, pow_zero, Nat.div_one, encIter_lowest_pair] at hfirst
      rw [encLoop, hfirst]
      simp

/-- Pair `i` of an encoded code is its digit `11 - i` (R114). -/
theorem encodeAcc_pair (code : Word) {i : Nat} (hi : i < 12) :
    (encodeAcc code).toNat / 4 ^ i % 4 = codeDigit code (11 - i) := by
  have hwork : (maskedCode code).toNat = code.toNat % 2 ^ 20 := by
    rw [maskedCode, BitVec.extractLsb'_toNat, Nat.shiftRight_zero]
  have hpair := encLoop_digit_pair 12 hi { work := maskedCode code, n := 0#4, a := 0#24, t := 0#2 } hi
  rw [hwork] at hpair
  exact hpair

/-- Settles O21: the pairs are the digits, and `TX_ORDER` says from which end they are read. -/
theorem sentTritIsCodeDigit : Obligations.SentTritIsCodeDigit := by
  unfold Obligations.SentTritIsCodeDigit
  intro code i hi
  refine ⟨encodeAcc_pair code hi, ?_, fun order => ?_⟩
  · have hpair := encodeAcc_pair code (i := 11 - i) (by omega)
    rw [show 11 - (11 - i) = i by omega] at hpair
    exact hpair
  · exact AccHoldsTrits.sentTrit_ne (encTemps_accHoldsTrits code 0#2) order ⟨i, hi⟩

end Sys2Proof.Machine
end

section
/-! THE SHORTHAND `REQUEST`: four register writes and a `START`, taken from the agenda (R96). -/

namespace Sys2Proof.Machine

theorem runSteps_succ {s t : State} (h : step s = .next t) (n : Nat) : runSteps (n + 1) s = runSteps n t := by
  rw [runSteps, h]

/-- A run that finds a `HOST` word with `W = 1` pending goes on from the written register (R93, R190). -/
theorem runSteps_hostWrite {s : State} {rest : List Turn} {n : BitVec 3} {v : Word} (hn : n.toNat ≤ 4)
    (ha : s.agenda = .input (.host (1#1 ++ n ++ v)) :: rest) (k : Nat) :
    runSteps (k + 1) s = runSteps k (hostWrite n v { s with agenda := rest }) :=
  runSteps_succ (step_hostWrite hn ha) k

theorem runSteps_one (s : State) : runSteps 1 s = step s := by
  rw [runSteps]
  cases step s <;> rfl

/-- Settles O41: the four words before the last write the request registers, and the last is `START`. -/
theorem requestShorthandIsFiveOperations : Obligations.RequestShorthandIsFiveOperations := by
  unfold Obligations.RequestShorthandIsFiveOperations
  intro s pin code period rep rest _
  have hstart : decode (hostWord 0b1101#4 1#32) = .ok (.start 1#32) := Laws.RoundTrip.start 1#32 rfl
  rw [runSteps_hostWrite (n := 0#3) (by decide) rfl, runSteps_hostWrite (n := 1#3) (by decide) rfl,
    runSteps_hostWrite (n := 2#3) (by decide) rfl, runSteps_hostWrite (n := 3#3) (by decide) rfl,
    runSteps_one, step_input rfl hstart nofun]
  rfl

end Sys2Proof.Machine
end

section
/-! WHICH STEPS ARE SELECTED: what the sequencer's turn performs, and what is refused where no step is selected (R92, R94,
R97, R173). -/

namespace Sys2Proof.Machine

theorem step_of_fetch_run {s s' : State} {i : Instr} (h : fetch s = .run i s') : step s = exec i s' := by
  rw [step, h]

/-- Settles O49: the sequencer's turn is the step of its `STATE`, or a tick of the hold in progress. -/
theorem sequencerTakesSelectedStep : Obligations.SequencerTakesSelectedStep := by
  unfold Obligations.SequencerTakesSelectedStep
  intro s rest
  have hturn : fetch { s with agenda := .sequencer :: rest } = _ := sequencerTurn_eq { s with agenda := rest }
  refine ⟨fun hhact => ?_, fun hhact hdly => ?_, rfl⟩
  · exact step_of_fetch_run (hturn.trans (if_neg (ne_true_of_eq_false hhact)))
  · exact step_of_fetch_run (hturn.trans ((if_pos hhact).trans (if_neg hdly)))

/-- Settles O25: the reserved trit has no hold. -/
theorem emitRefusesReservedTrit : Obligations.EmitRefusesReservedTrit := by
  unfold Obligations.EmitRefusesReservedTrit
  intro s hst hhact htrit
  rw [exec, execEmit, if_pos ⟨hst, hhact⟩, emitHold_none htrit]

/-- `TX` in `Idle` is refused while a hold is in progress, whether its request would be accepted or not (R173, R174). -/
theorem execTx_refused {s : State} (hhact : s.hact = true) (hst : s.st = .idle) (pin code period rep : Word) :
    execTx pin code period rep s = .refused .notSelected := by
  have hidle : (writeRequest ⟨pin, code, period, rep⟩ s).st = .idle := hst
  rw [execTx, startRequest, if_pos hidle]
  exact if_pos hhact

/-- Settles O29: the condition of a guarded operation fails, or `unlessInHold` refuses it. -/
theorem unselectedStepsAreRefused : Obligations.UnselectedStepsAreRefused := by
  unfold Obligations.UnselectedStepsAreRefused
  intro s
  have hidle (hc : ¬ (s.st = .idle ∧ s.hact = false)) : execIdle s = .refused .notSelected := by
    by_cases hst : s.st = .idle
    · have hhact : s.hact = true := by simpa [hst] using hc
      exact (if_pos hst).trans (unlessInHold_refused hhact s)
    · exact if_neg hst
  have haccept (hg : ¬ GatePasses s.repeatExp s.repLimit) : execAccept s = .refused .notSelected :=
    if_neg fun ha => hg ((gateAccepts_iff _ _).1 ha)
  exact ⟨hidle, fun hc => if_neg hc, fun hc => if_neg hc, fun hc => if_neg hc, fun hc => if_neg hc,
    fun hc => if_neg hc, haccept, fun hhact _ _ => unlessInHold_refused hhact _,
    fun hhact => ⟨unlessInHold_refused hhact _, unlessInHold_refused hhact _, unlessInHold_refused hhact _⟩,
    fun hhact hst => execTx_refused hhact hst⟩

end Sys2Proof.Machine
end

section
/-! THE BUILD-TIME PARAMETERS: every shared operation, and so every operation and every step, leaves them alone (R86, R95,
R8). -/

namespace Sys2Proof.Machine

/-! ## The shared operations -/

section
variable {s t : State}

@[simp] theorem hostWrite_build (n : BitVec 3) (v : Word) (s : State) : (hostWrite n v s).build = s.build := by
  unfold hostWrite
  split <;> rfl

@[simp] theorem runProgram_build (p : List (Level × BitVec 5)) (s : State) : (runProgram p s).build = s.build := by
  induction p generalizing s with
  | nil => rfl
  | cons d p ih => exact ih (holdEvent d.1 d.2 s)

@[simp] theorem gateRequest_build (s : State) : (gateRequest s).build = s.build := by
  unfold gateRequest
  split <;> rfl

@[simp] theorem afterEmit_build (s : State) : (afterEmit s).build = s.build := by
  rw [afterEmit_frame]

@[simp] theorem afterSync_build (s : State) : (afterSync s).build = s.build := by
  obtain ⟨-, h⟩ | ⟨-, -, h⟩ | ⟨-, -, h⟩ := afterSync_cases s <;> rw [h] <;> rfl

@[simp] theorem endHold_build (s : State) : (endHold s).build = s.build := by
  unfold endHold afterHold
  split
  · rfl
  · rfl
  · exact afterEmit_build _
  · exact afterSync_build _

theorem sequencerHold_build {after : State → State} (l : Level) (m : BitVec 5)
    (hafter : ∀ u, (after u).build = u.build) (s : State) : (sequencerHold l m after s).build = s.build := by
  unfold sequencerHold
  split
  · exact hafter (holdEvent l m s)
  · rfl

@[simp] theorem cutHold_build (s : State) : (cutHold s).build = s.build := by
  unfold cutHold
  split <;> rfl

@[simp] theorem dropLine_build (s : State) : (dropLine s).build = s.build := by
  unfold dropLine
  split <;> rfl

@[simp] theorem holdSource_build (s : State) : (holdSource s).build = s.build := by
  unfold holdSource
  split <;> rfl

/-! ## Operations -/

theorem next_build {u : State} (hu : u.build = s.build) (h : (.next u : Out) = .next t) : t.build = s.build := by
  cases h; exact hu

theorem unlessInHold_build {u : State} (hu : u.build = s.build) (h : unlessInHold s u = .next t) :
    t.build = s.build := by
  obtain ⟨-, rfl⟩ := unlessInHold_cases h
  exact hu

theorem startRequest_build (h : startRequest s = .next t) : t.build = s.build :=
  next_build (gateRequest_build (sampleRequest s)) (guarded_next h).2

theorem execHold_build {l : Level} {m : BitVec 5} (h : execHold l m s = .next t) : t.build = s.build := by
  refine unlessInHold_build ?_ h
  split <;> rfl

theorem execEmit_build (h : execEmit s = .next t) : t.build = s.build := by
  obtain ⟨-, -, hold, -, rfl⟩ := execEmit_cases h
  exact sequencerHold_build hold.1 hold.2 afterEmit_build (readTrit s)

theorem execSync_build (h : execSync s = .next t) : t.build = s.build := by
  obtain ⟨-, -, rfl⟩ := execSync_cases h
  exact sequencerHold_build _ _ afterSync_build s

theorem execTick_build (h : execTick s = .next t) : t.build = s.build := by
  obtain ⟨-, ⟨-, rfl⟩ | ⟨-, rfl⟩⟩ := execTick_cases h <;> rfl

theorem execTx_build {pin code period rep : Word} (h : execTx pin code period rep s = .next t) :
    t.build = s.build := by
  obtain ⟨-, a, hstart, hrun⟩ := execTx_cases h
  have ha : a.build = s.build := startRequest_build (s := writeRequest ⟨pin, code, period, rep⟩ s) hstart
  obtain ⟨-, rfl⟩ | ⟨-, trits, -, rfl⟩ := hrun <;> exact ha

theorem execParse_build {text : List Char} (h : execParse text s = .next t) : t.build = s.build := by
  unfold execParse at h
  split at h
  · cases h; rfl
  · cases h

theorem execReset_build (h : execReset s = .next t) : t.build = s.build :=
  next_build (u := resetRegisters (dropLine (cutHold s))) (by simp) h

theorem exec_build {i : Instr} (h : exec i s = .next t) : t.build = s.build := by
  cases i with
  | wrPin v | wrCode v | wrPeriod v | wrRepeat v | wrRepLimit v | wrNopCtrl v | wrNopStatus v | wrNopUnused v =>
    exact next_build (hostWrite_build _ v s) h
  | rdPin x | rdCode x | rdPeriod x | rdRepeat x | rdRepLimit x | rdZeroCtrl x | rdStatus x | rdZeroUnused x =>
    exact next_build (u := hostRead _ s) rfl h
  | start v => exact startRequest_build h
  | tx pin code period rep => exact execTx_build h
  | parse text => exact execParse_build h
  | mask code | encode code | encStep | tritsel | forceLow => exact unlessInHold_build (by rfl) h
  | sym0 | sym1 | sym2 => exact unlessInHold_build (runProgram_build _ s) h
  | hold l m => exact execHold_build h
  | emit => exact execEmit_build h
  | sync => exact execSync_build h
  | tick => exact execTick_build h
  | gate => exact unlessInHold_build (gateRequest_build s) h
  | accept => exact unlessInHold_build (u := acceptRequest s) rfl (guarded_next h).2
  | idle => exact unlessInHold_build rfl (guarded_next h).2
  | repeating => exact next_build (by rfl) (guarded_next h).2
  | nextTelegram => exact next_build (u := goNext s) rfl (guarded_next h).2
  | finish => exact next_build (u := finishRequest s) rfl (guarded_next h).2
  | reset => exact execReset_build h

/-! ## Steps -/

/-- A reset is taken in a state with the same parameters, also within a hold of the event level (R243). -/
theorem ResetFrom.build_eq {s₀ : State} (h : ResetFrom s s₀) : s₀.build = s.build := by
  obtain ⟨w, rest, -, rfl⟩ | ⟨n, rest, -, rfl | ⟨-, -, rfl⟩ | ⟨hold, -, -, -, rfl⟩⟩ := h
  · rfl
  · rfl
  · rfl
  · simp

theorem step_build (h : step s = .next t) : t.build = s.build := by
  obtain ⟨w, rest, i, -, -, h⟩ | ⟨s₀, hfrom, h⟩ | ⟨ag, -, ⟨-, -, rfl⟩ | ⟨-, -, h⟩ | ⟨-, h⟩⟩ := step_cases h
  · exact exec_build (s := { s with agenda := rest }) h
  · exact (exec_build h).trans hfrom.build_eq
  · exact endHold_build { s with agenda := ag }
  · exact exec_build (s := { s with agenda := ag }) h
  · exact exec_build (s := { s with agenda := ag }) h

end

/-- Settles O59: no operation writes the parameters, and neither does the end of a hold. -/
theorem buildParametersNeverChange : Obligations.BuildParametersNeverChange := by
  unfold Obligations.BuildParametersNeverChange
  intro s t h
  exact step_build h

end Sys2Proof.Machine
end

section
/-! THE ENCODER'S OPERATIONS: what `MASK`, `ENC.STEP`, `ENCODE` and `TRITSEL` write, and `ENCODE` as a function of the
code: the twelve base-3 digits of the low twenty bits, and nothing else of it (R110 to R117). -/

namespace Sys2Proof.Machine

/-! ## Operations -/

theorem maskedCode_toNat (code : Word) : (maskedCode code).toNat = code.toNat % 2 ^ 20 := by
  rw [maskedCode, BitVec.extractLsb'_toNat, Nat.shiftRight_zero]

/-- `ENCODE` leaves in `WORK` what twelve divisions leave of the masked code (R116). -/
theorem encTemps_work_toNat (code : Word) (t : BitVec 2) :
    (encTemps code t).work.toNat = code.toNat % 2 ^ 20 / 3 ^ 12 := by
  rw [encTemps, encLoop_work, maskedCode_toNat]
  rfl

/-- `ENCODE` on its own (R113): the accumulator does not depend on what the temporaries held. -/
theorem exec_encode {s : State} (h : s.hact = false) (code : Word) :
    exec (.encode code) s = .next { s with acc := encodeAcc code, tmp := encTemps code s.tmp.t } := by
  rw [← encTemps_a code s.tmp.t]
  exact unlessInHold_next h _

/-- Settles O15: the slice of the operand is the remainder. -/
theorem maskKeepsTwentyBits : Obligations.MaskKeepsTwentyBits := by
  unfold Obligations.MaskKeepsTwentyBits
  intro code s h
  exact ⟨maskedCode code, maskedCode_toNat code, unlessInHold_next h _⟩

/-- Settles O16: the operation is `encStep` on `WORK` and `A`. -/
theorem encStepExtractsOneDigit : Obligations.EncStepExtractsOneDigit := by
  unfold Obligations.EncStepExtractsOneDigit
  intro s h
  exact ⟨_, _, _, unlessInHold_next h _, encStep_spec s.tmp.work s.tmp.a⟩

/-- Settles O20: the slice is the pair sent at the cursor. -/
theorem tritselReadsCursorPair : Obligations.TritselReadsCursorPair := by
  unfold Obligations.TritselReadsCursorPair
  intro s h
  exact ⟨_, tritsel_toNat s.build.txOrder s.acc s.i, unlessInHold_next h _⟩

/-- Settles O17: the new temporaries are those of the loop. -/
theorem encodeWritesAccumulatorOnly : Obligations.EncodeWritesAccumulatorOnly := by
  unfold Obligations.EncodeWritesAccumulatorOnly
  intro code s h
  exact ⟨_, exec_encode h code, encTemps_work_toNat code s.tmp.t⟩

/-! ## The digits of a code -/

/-- The low `k` digits of `x` in base `b` make up its residue modulo `b ^ k`. -/
theorem sum_range_digit_mul_pow (b x k : ℕ) : ∑ i ∈ Finset.range k, x / b ^ i % b * b ^ i = x % b ^ k := by
  induction k with
  | zero => simp [Nat.mod_one]
  | succ k ih => rw [Finset.sum_range_succ, ih, Nat.mod_pow_succ, Nat.mul_comm (b ^ k)]

/-- Settles O18: a number below `4 ^ 12` is the sum of its pairs, and pair `11 - n` is digit `n`. -/
theorem encodeHasClosedForm : Obligations.EncodeHasClosedForm := by
  unfold Obligations.EncodeHasClosedForm
  intro code
  calc (encodeAcc code).toNat
      = (encodeAcc code).toNat % 4 ^ 12 := (Nat.mod_eq_of_lt (encodeAcc code).isLt).symm
    _ = ∑ i ∈ Finset.range 12, (encodeAcc code).toNat / 4 ^ i % 4 * 4 ^ i := (sum_range_digit_mul_pow 4 _ 12).symm
    _ = ∑ i ∈ Finset.range 12, codeDigit code (11 - i) * 4 ^ i :=
        Finset.sum_congr rfl fun i hi => by rw [encodeAcc_pair code (Finset.mem_range.1 hi)]
    _ = ∑ n ∈ Finset.range 12, codeDigit code (11 - (11 - n)) * 4 ^ (11 - n) :=
        (Finset.sum_range_reflect (fun i => codeDigit code (11 - i) * 4 ^ i) 12).symm
    _ = ∑ n ∈ Finset.range 12, codeDigit code n * 4 ^ (11 - n) :=
        Finset.sum_congr rfl fun n hn => by rw [Nat.sub_sub_self (Nat.le_of_lt_succ (Finset.mem_range.1 hn))]

/-- The twelve digits of a code depend on its residue modulo `3 ^ 12` only (R117). -/
theorem codeDigit_eq_residue_digit (code : Word) {n : ℕ} (hn : n < 12) :
    codeDigit code n = code.toNat % 2 ^ 20 % 3 ^ 12 / 3 ^ n % 3 := by
  have hpow : 3 ^ 12 = 3 ^ n * (3 * 3 ^ (11 - n)) := by rw [← pow_succ', ← pow_add]; congr 1; omega
  rw [codeDigit, hpow, Nat.mod_mul_right_div_self, Nat.mod_mul_right_mod]

/-- Two codes are encoded alike exactly where their low twenty bits agree modulo `3 ^ 12` (R114, R117). -/
theorem encodeAcc_eq_iff (c d : Word) :
    encodeAcc c = encodeAcc d ↔ c.toNat % 2 ^ 20 % 3 ^ 12 = d.toNat % 2 ^ 20 % 3 ^ 12 := by
  constructor
  · intro h
    have hdigit : ∀ n < 12, codeDigit c n = codeDigit d n := fun n hn => by
      rw [← Nat.sub_sub_self (Nat.le_of_lt_succ hn), ← encodeAcc_pair c (by omega), h, encodeAcc_pair d (by omega)]
    rw [← sum_range_digit_mul_pow 3 _ 12, ← sum_range_digit_mul_pow 3 _ 12]
    exact Finset.sum_congr rfl fun n hn => congrArg (· * 3 ^ n) (hdigit n (Finset.mem_range.1 hn))
  · intro h
    apply BitVec.eq_of_toNat_eq
    rw [encodeHasClosedForm c, encodeHasClosedForm d]
    refine congrArg List.sum (List.map_congr_left fun n hn => ?_)
    rw [codeDigit_eq_residue_digit c (List.mem_range.1 hn), h, ← codeDigit_eq_residue_digit d (List.mem_range.1 hn)]

/-- Masking leaves a code of twenty bits alone. -/
theorem toNat_ofNat_mod_of_lt {c : ℕ} (hc : c < 2 ^ 20) : (BitVec.ofNat 32 c).toNat % 2 ^ 20 = c := by
  rw [BitVec.toNat_ofNat]; omega

/-- Settles O19: each clause is `encodeAcc_eq_iff` on the codes it names, and the residue is one division. -/
theorem encodeAliasesAboveThreeToTwelve : Obligations.EncodeAliasesAboveThreeToTwelve := by
  unfold Obligations.EncodeAliasesAboveThreeToTwelve
  refine ⟨fun code => ?_, fun c hc hlt => ?_, fun c s h hc hlt => ?_, fun c d hc hd h => ?_⟩
  · have hmask : (code &&& 0xFFFFF#32).toNat = code.toNat % 2 ^ 20 := by
      rw [BitVec.toNat_and]
      exact Nat.and_two_pow_sub_one_eq_mod code.toNat 20
    rw [encodeAcc_eq_iff, hmask, Nat.mod_mod]
  · rw [encodeAcc_eq_iff, toNat_ofNat_mod_of_lt hlt, toNat_ofNat_mod_of_lt (by omega)]
    omega
  · refine ⟨_, exec_encode h _, BitVec.eq_of_toNat_eq ?_⟩
    have hdiv : c / 3 ^ 12 = 1 := by omega
    rw [encTemps_work_toNat, toNat_ofNat_mod_of_lt hlt, hdiv]
    rfl
  · rw [encodeAcc_eq_iff, toNat_ofNat_mod_of_lt (by omega), toNat_ofNat_mod_of_lt (by omega)] at h
    omega

end Sys2Proof.Machine
end

section
/-! ONE STEP OF THE TRANSMITTER: what the operations of the pulse transmitter do to the whole state, each once (R131 to
R136, R142, R147, R148, R155). -/

namespace Sys2Proof.Machine

section
variable {s : State}

/-- A hold at the event level, as a whole state (R171). -/
theorem holdEvent_eq (l : Level) (m : BitVec 5) (s : State) :
    holdEvent l m s = { s with
      out := l, lines := linesWrite s.lPin.toNat l s.lines
      now := s.now + duration m s.lPeriod * Config.ticksPerUs
      trace := s.trace ++ [.set s.lPin l, .wait (duration m s.lPeriod)], dly := 0#37, held := 0#37 } := by
  simp [holdEvent, setOutput, waitUs]

/-- Hold `h` of the symbol at the cursor performed, the position not yet moved (R136). -/
def heldAt (t : Trit) (h : BitVec 2) (s : State) : State :=
  { s with
    h := h, tmp := { s.tmp with t := tritsel s.build.txOrder s.acc s.i }
    out := levelOf h, lines := linesWrite s.lPin.toNat (levelOf h) s.lines
    now := s.now + duration (mult t h) s.lPeriod * Config.ticksPerUs
    trace := s.trace ++ [.set s.lPin (levelOf h), .wait (duration (mult t h) s.lPeriod)], dly := 0#37, held := 0#37 }

/-- Everything `EMIT` does at the event level: the whole hold, then the position update (R136). -/
theorem execEmit_event (hst : s.st = .emittingSymbol) (hhact : s.hact = false) (htiming : s.build.timing = .event)
    {t : Trit} (ht : tritOf (tritsel s.build.txOrder s.acc s.i) = some t) :
    execEmit s = .next (afterEmit (heldAt t s.h s)) := by
  have hhold : emitHold s = some (levelOf s.h, mult t s.h) := by simp [emitHold, ht]
  rw [execEmit, if_pos ⟨hst, hhact⟩, hhold]
  dsimp only
  rw [sequencerHold_event (s := readTrit s) htiming, holdEvent_eq]
  rfl

/-- The position after a symbol's hold, as a whole state (R140, R141). -/
theorem afterEmit_moves (s : State) : ∃ (st : SeqState) (i : Fin 12) (h : BitVec 2),
    (st, i.val, h.toNat) =
      (if s.h.toNat < 3 then (s.st, s.i.val, s.h.toNat + 1)
       else if s.i.val < 11 then (s.st, s.i.val + 1, 0)
       else (.syncPulse, s.i.val, 0)) ∧
    afterEmit s = { s with st := st, i := i, h := h } :=
  ⟨_, _, _, afterEmit_pos s, afterEmit_frame s⟩

/-- Everything `SYNC` does at the event level in the high hold (R142). -/
theorem execSync_high (hst : s.st = .syncPulse) (hhact : s.hact = false) (htiming : s.build.timing = .event)
    (hh : s.h = 0#2) : execSync s = .next { holdEvent true Config.mSyncHigh s with h := 1#2 } := by
  have hhold : syncHold s = (true, Config.mSyncHigh) := by simp [syncHold, syncMult, hh]
  rw [execSync, if_pos ⟨hst, hhact⟩, sequencerHold_event htiming, hhold]
  exact congrArg Host.Outcome.next (if_pos hh)

/-- Where the last hold of a telegram leads (R142). -/
def endTelegram (s : State) : State := if s.k.toNat + 1 < s.reps.toNat then goNext s else finishRequest s

/-- Everything `SYNC` does at the event level in the low hold, which ends the telegram (R142). -/
theorem execSync_low (hst : s.st = .syncPulse) (hhact : s.hact = false) (htiming : s.build.timing = .event)
    (hh : s.h = 1#2) : execSync s = .next (endTelegram (holdEvent false Config.mSyncLow s)) := by
  have hhold : syncHold s = (false, Config.mSyncLow) := by simp [syncHold, syncMult, hh]
  have hlow : ¬ (holdEvent false Config.mSyncLow s).h = 0#2 := by simp [hh]
  rw [execSync, if_pos ⟨hst, hhact⟩, sequencerHold_event htiming, hhold]
  exact congrArg Host.Outcome.next (if_neg hlow)

end

/-- Settles O13: `GATE` is `ACCEPT` where it passes, and the error where it does not. -/
theorem gateAcceptsOrRaises : Obligations.GateAcceptsOrRaises := by
  unfold Obligations.GateAcceptsOrRaises
  intro s hhact
  refine ⟨fun hg => ?_, fun hg => ?_⟩
  · have ha := (gateAccepts_iff _ _).2 hg
    have hgate : gateRequest s = acceptRequest s := if_pos ha
    obtain ⟨h0, h7, -⟩ := hg
    refine ⟨encTemps s.code s.tmp.t, _, acceptRequest s, reps_toNat h0 h7, ?_, ?_, ?_⟩
    · exact (unlessInHold_next hhact (gateRequest s)).trans (congrArg Host.Outcome.next hgate)
    · exact (if_pos ha).trans (unlessInHold_next hhact (acceptRequest s))
    · rw [← encTemps_a s.code s.tmp.t]
      rfl
  · have hgate : gateRequest s = raiseMalformed s := if_neg fun ha => hg ((gateAccepts_iff _ _).1 ha)
    exact (unlessInHold_next hhact (gateRequest s)).trans (congrArg Host.Outcome.next hgate)

/-- Settles O14: the one write of `LINES` is of the request's line. -/
theorem forceLowSetsOnlyTheLine : Obligations.ForceLowSetsOnlyTheLine := by
  unfold Obligations.ForceLowSetsOnlyTheLine
  intro s hhact
  exact ⟨_, unlessInHold_next hhact (forceLow s), fun x => linesRead_linesWrite _ x false s.lines⟩

/-- Settles O22: with nothing pending the sequencer's turn in `Idle` is `IDLE`. -/
theorem idleStepChangesNothing : Obligations.IdleStepChangesNothing := by
  unfold Obligations.IdleStepChangesNothing
  intro s hst hhact
  have hidle : exec .idle s = .next s := (if_pos hst).trans (unlessInHold_next hhact s)
  refine ⟨hidle, fun hag => ?_⟩
  rw [step_sequencer hag hhact, hst]
  exact hidle

/-- Settles O23: the condition of `REPEATING` holds. -/
theorem repeatingResetsCursor : Obligations.RepeatingResetsCursor := by
  unfold Obligations.RepeatingResetsCursor
  intro s hst hhact
  exact if_pos ⟨hst, hhact⟩

/-- Settles O24: the hold at the cursor on the numbers, and the position update after it. -/
theorem emitPerformsOneHold : Obligations.EmitPerformsOneHold := by
  unfold Obligations.EmitPerformsOneHold
  intro s hst hhact htiming htrit
  obtain ⟨b, ht⟩ := trit_some htrit
  have hexec := execEmit_event hst hhact htiming ht
  obtain ⟨st, i, h, hpos, hmoved⟩ := afterEmit_moves (heldAt b s.h s)
  rw [hmoved, heldAt, levelOf_eq] at hexec
  rw [show (heldAt b s.h s).st = .emittingSymbol from hst] at hpos
  refine ⟨duration (mult b s.h) s.lPeriod, st, i, h, tritsel s.build.txOrder s.acc s.i, 0#37, 0#37, ?_,
    tritsel_toNat _ _ _, hpos, hexec⟩
  rw [duration, mult_toNat b _ s.h ht, tritsel_toNat]

/-- Settles O26: the two holds of the sync pulse; what `FINISH` forces low is low already. -/
theorem syncPerformsOneHold : Obligations.SyncPerformsOneHold := by
  unfold Obligations.SyncPerformsOneHold
  intro s hst hhact htiming
  refine ⟨0#37, 0#37, linesWrite s.lPin.toNat (decide (s.h = 0#2)) s.lines, s.k + 1#7,
    fun x => linesRead_linesWrite _ x _ s.lines, fun hk => by bv_omega, fun hh => ?_, fun hh => ?_⟩
  · have hdur : duration Config.mSyncHigh s.lPeriod = s.lPeriod.toNat := Nat.one_mul _
    refine (execSync_high hst hhact htiming hh).trans ?_
    simp [holdEvent_eq, hdur, hh]
  · have hdur : duration Config.mSyncLow s.lPeriod = 31 * s.lPeriod.toNat := by simp [duration, Config.mSyncLow]
    refine (execSync_low hst hhact htiming hh).trans ?_
    by_cases hk : s.k.toNat + 1 < s.reps.toNat
    · simp [endTelegram, hk, goNext, holdEvent_eq, hdur, hh]
    · simp [endTelegram, hk, finishRequest, forceLow, setOutput, holdEvent_eq, linesWrite_linesWrite, hdur, hh]

/-- Settles O27: the conditions of `NEXT` and `FINISH` hold. -/
theorem nextAndFinishEndTelegram : Obligations.NextAndFinishEndTelegram := by
  unfold Obligations.NextAndFinishEndTelegram
  intro s hst hhact hh
  refine ⟨fun hk => ⟨s.k + 1#7, fun hlt => by bv_omega, ?_⟩, fun hk => ?_⟩
  · exact if_pos ⟨hst, hhact, hh, hk⟩
  · exact if_pos ⟨hst, hhact, hh, hk⟩

end Sys2Proof.Machine
end

section
/-! THE TRACES OF SYMBOLS AND TELEGRAMS: their levels and their time (R88, R89, R151, R152), and the state that the
micro-program of a symbol leaves (R137 to R139). -/

namespace Sys2Proof.Machine

/-- The two-bit code of a trit, as a number (R87). -/
def tritValue : Trit → Nat
  | .t0 => 0
  | .t1 => 1
  | .t2 => 2

/-- The holds of a symbol, from the pulse-shape table (R88). -/
theorem symbolTrace_eq (pin : Word) (t : Trit) (period : Word) :
    symbolTrace pin t period =
      [.set pin true, .wait (tableMult (tritValue t) 0 * period.toNat),
       .set pin false, .wait (tableMult (tritValue t) 1 * period.toNat),
       .set pin true, .wait (tableMult (tritValue t) 2 * period.toNat),
       .set pin false, .wait (tableMult (tritValue t) 3 * period.toNat)] := by
  cases t <;> rfl

/-- Every row of the pulse-shape table sums to 8 (R88). -/
theorem tableMult_sum (t : Trit) : tableMult (tritValue t) 0 + tableMult (tritValue t) 1 +
    tableMult (tritValue t) 2 + tableMult (tritValue t) 3 = 8 := by
  cases t <;> rfl

theorem totalWait_symbolTrace (pin : Word) (t : Trit) (period : Word) :
    totalWait (symbolTrace pin t period) = 8 * period.toNat := by
  rw [symbolTrace_eq, ← tableMult_sum t]
  simp only [totalWait]
  ring

theorem setLevels_symbolTrace (pin : Word) (t : Trit) (period : Word) :
    setLevels (symbolTrace pin t period) = (List.replicate 2 [true, false]).flatten := by
  rw [symbolTrace_eq]
  rfl

theorem totalWait_syncTrace (pin period : Word) : totalWait (syncTrace pin period) = 32 * period.toNat := by
  simp only [syncTrace, totalWait, duration, Config.mSyncHigh, Config.mSyncLow, BitVec.reduceToNat]
  ring

/-- The symbols of a telegram last 8 periods each, whatever their trits. -/
theorem totalWait_symbols (pin period : Word) (trits : List Trit) :
    totalWait (trits.flatMap fun t => symbolTrace pin t period) = trits.length * (8 * period.toNat) := by
  induction trits with
  | nil => simp [totalWait]
  | cons t trits ih =>
    rw [List.flatMap_cons, totalWait_append, ih, totalWait_symbolTrace, List.length_cons]
    ring

theorem setLevels_symbols (pin period : Word) (trits : List Trit) :
    setLevels (trits.flatMap fun t => symbolTrace pin t period) =
      (List.replicate (2 * trits.length) [true, false]).flatten := by
  induction trits with
  | nil => rfl
  | cons t trits ih =>
    rw [List.flatMap_cons, setLevels_append, ih, setLevels_symbolTrace, List.length_cons, Nat.mul_succ,
      Nat.add_comm, List.replicate_add, List.flatten_append]

theorem totalWait_telegramTrace (pin period : Word) {trits : List Trit} (h : trits.length = 12) :
    totalWait (telegramTrace pin trits period) = 128 * period.toNat := by
  rw [telegramTrace, totalWait_append, totalWait_symbols, totalWait_syncTrace, h]
  ring

theorem telegramsTrace_succ (n : Nat) (pin : Word) (trits : List Trit) (period : Word) :
    telegramsTrace (n + 1) pin trits period = telegramTrace pin trits period ++ telegramsTrace n pin trits period := by
  rw [telegramsTrace, List.replicate_succ, List.flatten_cons, telegramsTrace]

theorem totalWait_telegramsTrace (count : Nat) (pin period : Word) {trits : List Trit} (h : trits.length = 12) :
    totalWait (telegramsTrace count pin trits period) = 128 * period.toNat * count := by
  induction count with
  | zero => rfl
  | succ count ih =>
    rw [telegramsTrace_succ, totalWait_append, totalWait_telegramTrace pin period h, ih]
    ring

/-- Settles O37: twelve symbols of 8 periods and the sync pulse of 32, each alternating from high. -/
theorem telegramHasConstantLength : Obligations.TelegramHasConstantLength := by
  unfold Obligations.TelegramHasConstantLength
  intro pin period trits h
  refine ⟨?_, totalWait_telegramTrace pin period h⟩
  rw [telegramTrace, setLevels_append, setLevels_symbols, h]
  rfl

/-- `s` after `events` on the request's line, the last of which drove it low. -/
def drivenLow (events : List TraceEvent) (s : State) : State :=
  { s with
    out := false, lines := linesWrite s.lPin.toNat false s.lines
    now := s.now + totalWait events * Config.ticksPerUs, trace := s.trace ++ events, dly := 0#37, held := 0#37 }

/-- The micro-program of a symbol performs its holds (R91, R151). -/
theorem runProgram_symbolProgram (t : Trit) (s : State) :
    runProgram (symbolProgram t) s = drivenLow (symbolTrace s.lPin t s.lPeriod) s := by
  rw [drivenLow, totalWait_symbolTrace, symbolTrace_eq]
  cases t <;>
    simp [runProgram, symbolProgram, holdEvent_eq, linesWrite_linesWrite, tritValue, tableMult, pulseTable,
      duration] <;>
    ring

/-- A symbol as one operation, where no hold is in progress (R137 to R139). -/
theorem exec_symbol {s : State} (hhact : s.hact = false) (t : Trit) :
    exec (if tritValue t = 0 then .sym0 else if tritValue t = 1 then .sym1 else .sym2) s =
      .next (drivenLow (symbolTrace s.lPin t s.lPeriod) s) := by
  rw [← runProgram_symbolProgram]
  cases t <;> exact unlessInHold_next hhact _

theorem exists_tritValue {n : Nat} (hn : n < 3) : ∃ t, tritValue t = n := by
  obtain rfl | rfl | rfl : n = 0 ∨ n = 1 ∨ n = 2 := by omega
  · exact ⟨.t0, rfl⟩
  · exact ⟨.t1, rfl⟩
  · exact ⟨.t2, rfl⟩

/-- Settles O28: the number of a symbol is the code of its trit. -/
theorem symbolsPerformFourHolds : Obligations.SymbolsPerformFourHolds := by
  unfold Obligations.SymbolsPerformFourHolds
  intro s hhact n hn
  obtain ⟨t, rfl⟩ := exists_tritValue hn
  refine ⟨_, 0#37, 0#37, _, exec_symbol hhact t, ?_, fun x => linesRead_linesWrite _ x false s.lines⟩
  rw [drivenLow, totalWait_symbolTrace, symbolTrace_eq]

end Sys2Proof.Machine
end

section
/-! THE REQUEST AS ONE FUNCTION: `TX` accepted and rejected, the trits it sends, its time, and what it depends on (R151,
R153, R158). -/

namespace Sys2Proof.Machine

/-! ## The trits of a request -/

/-- The trits at some cursors, if none is the reserved code (R115, R118). -/
def tritsAt (order : TxOrder) (acc : BitVec 24) (cs : List (Fin 12)) : Option (List Trit) :=
  cs.mapM fun i => tritOf (tritsel order acc i)

theorem tritsAt_cons_eq_some {order : TxOrder} {acc : BitVec 24} {i : Fin 12} {cs : List (Fin 12)}
    {trits : List Trit} : tritsAt order acc (i :: cs) = some trits ↔
      ∃ t, tritOf (tritsel order acc i) = some t ∧ ∃ ts, tritsAt order acc cs = some ts ∧ t :: ts = trits := by
  simp [tritsAt, Option.bind_eq_some_iff]

theorem exists_tritsAt {acc : BitVec 24} (h : AccHoldsTrits acc) (order : TxOrder) (cs : List (Fin 12)) :
    ∃ trits, tritsAt order acc cs = some trits := by
  induction cs with
  | nil => exact ⟨[], rfl⟩
  | cons i cs ih =>
    obtain ⟨t, ht⟩ := trit_some (h.sentTrit_ne order i)
    obtain ⟨ts, hts⟩ := ih
    exact ⟨t :: ts, tritsAt_cons_eq_some.2 ⟨t, ht, ts, hts, rfl⟩⟩

theorem toNat_of_tritOf {b : BitVec 2} {t : Trit} (h : tritOf b = some t) : b.toNat = tritValue t := by
  rw [(tritOf_eq_some b t).1 h]
  cases t <;> rfl

/-- The trits at some cursors have the values of the pairs sent there (R86, R87). -/
theorem map_tritValue_tritsAt {order : TxOrder} {acc : BitVec 24} {cs : List (Fin 12)} {trits : List Trit}
    (h : tritsAt order acc cs = some trits) :
    trits.map tritValue = cs.map fun i => sentTrit order acc i.val := by
  induction cs generalizing trits with
  | nil => cases h; rfl
  | cons i cs ih =>
    obtain ⟨t, ht, ts, hts, rfl⟩ := tritsAt_cons_eq_some.1 h
    rw [List.map_cons, List.map_cons, ih hts, ← tritsel_toNat, toNat_of_tritOf ht]

theorem length_of_tritsAt {order : TxOrder} {acc : BitVec 24} {cs : List (Fin 12)} {trits : List Trit}
    (h : tritsAt order acc cs = some trits) : trits.length = cs.length := by
  simpa using congrArg List.length (map_tritValue_tritsAt h)

/-- A code has trits to send, whatever it is (R118). -/
theorem exists_tritsOf_encodeAcc (order : TxOrder) (code : Word) :
    ∃ trits, tritsOf order (encodeAcc code) = some trits :=
  exists_tritsAt (encTemps_accHoldsTrits code 0#2) order cursors

/-! ## `TX` accepted and rejected -/

section
variable {s u : State} {pin code period rep : Word}

/-- The state in which an accepted request begins its first telegram (R81, R192, R134). -/
def acceptedRequest (r : Request) (s : State) : State := acceptRequest (sampleRequest (writeRequest r s))

theorem acceptedRequest_acc (r : Request) (s : State) : (acceptedRequest r s).acc = encodeAcc r.code :=
  encTemps_a r.code s.tmp.t

theorem acceptedRequest_reps (r : Request) (s : State) {limit : Word} (hg : GatePasses r.rep limit) :
    (acceptedRequest r s).reps.toNat = 2 ^ r.rep.toInt.toNat := by
  obtain ⟨h0, h7, -⟩ := hg
  exact reps_toNat h0 h7

theorem execTx_accept (hst : s.st = .idle) (hhact : s.hact = false) (hg : GatePasses rep s.repLimit)
    {trits : List Trit} (ht : tritsOf s.build.txOrder (encodeAcc code) = some trits) :
    execTx pin code period rep s = .next (afterTelegrams trits (acceptedRequest ⟨pin, code, period, rep⟩ s)) := by
  have hstart : startRequest (writeRequest ⟨pin, code, period, rep⟩ s) =
      .next (acceptedRequest ⟨pin, code, period, rep⟩ s) := startRequest_accept hst hg
  have hbusy : ¬ (acceptedRequest ⟨pin, code, period, rep⟩ s).st = .idle := nofun
  have ht' : tritsOf (acceptedRequest ⟨pin, code, period, rep⟩ s).build.txOrder
      (acceptedRequest ⟨pin, code, period, rep⟩ s).acc = some trits := by
    rw [acceptedRequest_acc]; exact ht
  rw [execTx, hstart]
  simp only [hhact, hbusy, ht', Bool.false_eq_true, if_false]

theorem execTx_reject (hst : s.st = .idle) (hhact : s.hact = false) (hg : ¬ GatePasses rep s.repLimit) :
    execTx pin code period rep s =
      .next (raiseMalformed (sampleRequest (writeRequest ⟨pin, code, period, rep⟩ s))) := by
  have hstart : startRequest (writeRequest ⟨pin, code, period, rep⟩ s) = _ := startRequest_reject hst hg
  rw [execTx, hstart]
  simp [hhact]

/-- `TX` has a next state in `Idle` with no hold in progress, and only there (R250, R173). -/
theorem execTx_enabled (h : execTx pin code period rep s = .next u) : s.st = .idle ∧ s.hact = false := by
  obtain ⟨hhact, a, hstart, -⟩ := execTx_cases h
  exact ⟨(startRequest_cases hstart).1, hhact⟩

/-- Everything an accepted `TX` appends to the trace (R151). -/
def requestEvents (pin : Word) (trits : List Trit) (period rep : Word) : List TraceEvent :=
  [TraceEvent.set pin false] ++ telegramsTrace (2 ^ rep.toInt.toNat) pin trits period ++ [TraceEvent.set pin false]

theorem afterTelegrams_trace (r : Request) (s : State) (trits : List Trit) (hg : GatePasses r.rep s.repLimit) :
    (afterTelegrams trits (acceptedRequest r s)).trace = s.trace ++ requestEvents r.pin trits r.period r.rep := by
  rw [requestEvents, ← acceptedRequest_reps r s hg, ← List.append_assoc, ← List.append_assoc]
  rfl

theorem afterTelegrams_now (r : Request) (s : State) {trits : List Trit} (hg : GatePasses r.rep s.repLimit)
    (ht : trits.length = 12) :
    (afterTelegrams trits (acceptedRequest r s)).now =
      s.now + 128 * r.period.toNat * 2 ^ r.rep.toInt.toNat * Config.ticksPerUs := by
  rw [← acceptedRequest_reps r s hg, ← totalWait_telegramsTrace _ r.pin r.period ht]
  rfl

end

/-- Settles O38: an accepted `TX` leaves `afterTelegrams`, a rejected one the error. -/
theorem txIsTheRequestFunction : Obligations.TxIsTheRequestFunction := by
  unfold Obligations.TxIsTheRequestFunction
  intro pin code period rep s
  refine ⟨fun hst => ?_, fun hst hhact hg => ?_, fun hst hhact hg => ?_⟩
  · have hstart : startRequest (writeRequest ⟨pin, code, period, rep⟩ s) = .refused .startWhileBusy := if_neg hst
    rw [exec, execTx, hstart]
  · obtain ⟨trits, ht⟩ := exists_tritsOf_encodeAcc s.build.txOrder code
    refine ⟨_, trits, execTx_accept hst hhact hg ht, map_tritValue_tritsAt ht, ?_, rfl, rfl, rfl, rfl, rfl, rfl, rfl,
      rfl, fun x => ?_⟩
    · rw [afterTelegrams_trace _ s trits hg, requestEvents, ← List.append_assoc, ← List.append_assoc]
      rfl
    · change linesRead x (linesWrite pin.toNat false (linesWrite pin.toNat false s.lines)) = _
      rw [linesWrite_linesWrite, linesRead_linesWrite]
  · refine (execTx_reject hst hhact hg).trans ?_
    rw [hst]
    rfl

/-- Settles O39: the telegrams of an accepted request last 128 periods each, and nothing else of it takes time. -/
theorem requestLastsExactTime : Obligations.RequestLastsExactTime := by
  unfold Obligations.RequestLastsExactTime
  intro pin code period rep s u h
  obtain ⟨hst, hhact⟩ := execTx_enabled h
  refine ⟨fun hg => ?_, fun hg => ?_⟩
  · obtain ⟨trits, ht⟩ := exists_tritsOf_encodeAcc s.build.txOrder code
    cases h.symm.trans (execTx_accept hst hhact hg ht)
    exact afterTelegrams_now _ s hg (length_of_tritsAt ht)
  · cases h.symm.trans (execTx_reject hst hhact hg)
    rfl

/-- Settles O40: the trits depend on the code through `ENCODE` only, and the events on nothing else of the state. -/
theorem requestTraceDependsOnRequestOnly : Obligations.RequestTraceDependsOnRequestOnly := by
  unfold Obligations.RequestTraceDependsOnRequestOnly
  intro pin code code' period rep s s' u u' hlimit horder hcode h h'
  obtain ⟨hst, hhact⟩ := execTx_enabled h
  obtain ⟨hst', hhact'⟩ := execTx_enabled h'
  have hacc : encodeAcc code = encodeAcc code' := (encodeAcc_eq_iff code code').2 hcode
  by_cases hg : GatePasses rep s.repLimit
  · have hg' : GatePasses rep s'.repLimit := hlimit ▸ hg
    obtain ⟨trits, ht⟩ := exists_tritsOf_encodeAcc s.build.txOrder code
    have ht' : tritsOf s'.build.txOrder (encodeAcc code') = some trits := by rw [← horder, ← hacc, ht]
    cases h.symm.trans (execTx_accept hst hhact hg ht)
    cases h'.symm.trans (execTx_accept hst' hhact' hg' ht')
    exact ⟨rfl, requestEvents pin trits period rep, afterTelegrams_trace _ s trits hg,
      afterTelegrams_trace _ s' trits hg'⟩
  · have hg' : ¬ GatePasses rep s'.repLimit := hlimit ▸ hg
    cases h.symm.trans (execTx_reject hst hhact hg)
    cases h'.symm.trans (execTx_reject hst' hhact' hg')
    exact ⟨rfl, [.set pin false], rfl, rfl⟩

end Sys2Proof.Machine
end

section
/-! THE STATE MACHINE SENDS THE REQUEST: at the event level, with nothing pending, the sequencer's steps of a symbol, of
a sync pulse, of a telegram and of all telegrams, and the state each run leaves (R136, R142, R147, R148, R157). -/

namespace Sys2Proof.Machine

/-! ## Runs within a request -/

/-- `n` steps lead from `s` to `t`, and in the states before `t` a request is in progress. -/
structure BusyRun (n : Nat) (s t : State) : Prop where
  run : runSteps n s = .next t
  busy : ∀ j < n, ∃ c, runSteps j s = .next c ∧ c.st ≠ .idle

theorem BusyRun.of_step {s t : State} (hst : s.st ≠ .idle) (h : step s = .next t) : BusyRun 1 s t := by
  refine ⟨(runSteps_one s).trans h, fun j hj => ⟨s, ?_, hst⟩⟩
  obtain rfl : j = 0 := by omega
  rfl

theorem BusyRun.trans {m n : Nat} {s t u : State} (hst : BusyRun m s t) (htu : BusyRun n t u) :
    BusyRun (m + n) s u := by
  refine ⟨(runSteps_add hst.run).trans htu.run, fun j hj => ?_⟩
  by_cases hjm : j < m
  · exact hst.busy j hjm
  · obtain ⟨c, hc, hbusy⟩ := htu.busy (j - m) (by omega)
    have hsplit := runSteps_add (n := j - m) hst.run
    rw [Nat.add_sub_cancel' (Nat.le_of_not_lt hjm)] at hsplit
    exact ⟨c, hsplit.trans hc, hbusy⟩

/-- The sequencer alone moves, and its next hold is one step. -/
structure Undisturbed (s : State) : Prop where
  agenda_empty : s.agenda = []
  no_hold : s.hact = false
  event_level : s.build.timing = .event

/-- The step that `STATE` selects is taken (R92). -/
theorem Undisturbed.step_eq {s : State} (hs : Undisturbed s) {st : SeqState} (hst : s.st = st) :
    step s = exec (match (generalizing := false) st with
      | .idle => .idle | .repeating => .repeating | .emittingSymbol => .emit | .syncPulse => .sync) s :=
  hst ▸ step_sequencer hs.agenda_empty hs.no_hold

section
variable {s : State} {t : Trit}

/-! ## A symbol -/

theorem Undisturbed.heldAt (hs : Undisturbed s) (t : Trit) (h : BitVec 2) : Undisturbed (heldAt t h s) := { hs with }

theorem afterEmit_heldAt (t : Trit) {h : BitVec 2} (hh : h.toNat < 3) (s : State) :
    afterEmit (heldAt t h s) = { heldAt t h s with h := h + 1#2 } := if_pos hh

theorem emit_run (hs : Undisturbed s) (hst : s.st = .emittingSymbol)
    (ht : tritOf (tritsel s.build.txOrder s.acc s.i) = some t) (h : BitVec 2) :
    BusyRun 1 { s with h := h } (afterEmit (heldAt t h s)) := by
  have hs' : Undisturbed { s with h := h } := { hs with }
  exact .of_step (by simp [hst])
    ((hs'.step_eq hst).trans (execEmit_event (s := { s with h := h }) hst hs'.no_hold hs'.event_level ht))

/-- The four holds of a symbol are its trace (R140, R151). -/
theorem heldAt_four (t : Trit) (s : State) :
    heldAt t 3#2 (heldAt t 2#2 (heldAt t 1#2 (heldAt t 0#2 s))) =
      { drivenLow (symbolTrace s.lPin t s.lPeriod) (readTrit s) with h := 3#2 } := by
  simp [heldAt, readTrit, drivenLow, symbolTrace, holdIndices, totalWait, linesWrite_linesWrite, levelOf,
    Config.ticksPerUs]
  ring

/-- Four steps of `EMIT` perform the symbol at the cursor; the last moves the cursor (R140). -/
theorem symbol_run (hs : Undisturbed s) (hst : s.st = .emittingSymbol) (hh : s.h = 0#2)
    (ht : tritOf (tritsel s.build.txOrder s.acc s.i) = some t) :
    BusyRun 4 s (afterEmit { drivenLow (symbolTrace s.lPin t s.lPeriod) (readTrit s) with h := 3#2 }) := by
  have hfirst : { s with h := 0#2 } = s := by rw [← hh]
  have h0 := emit_run hs hst ht 0#2
  have h1 := emit_run (hs.heldAt t 0#2) hst ht 1#2
  have h2 := emit_run ((hs.heldAt t 0#2).heldAt t 1#2) hst ht 2#2
  have h3 := emit_run (((hs.heldAt t 0#2).heldAt t 1#2).heldAt t 2#2) hst ht 3#2
  rw [afterEmit_heldAt t (by decide)] at h0 h1 h2
  rw [hfirst] at h0
  rw [heldAt_four] at h3
  exact ((h0.trans h1).trans h2).trans h3

/-! ## A telegram -/

/-- `s` after `events`, the last of them those of the telegram's last symbol or of a hold of its sync pulse, with `H`
at `h` (R141, R142). -/
def atSyncPulse (h : BitVec 2) (events : List TraceEvent) (s : State) : State :=
  { drivenLow events s with
    st := .syncPulse, i := 11, h := h, tmp := { s.tmp with t := tritsel s.build.txOrder s.acc 11 } }

/-- `s` after `events`, the last of them those of the symbol at its cursor, at the first hold of symbol `i`. -/
def atSymbol (i : Fin 12) (events : List TraceEvent) (s : State) : State :=
  { drivenLow events (readTrit s) with i := i, h := 0#2 }

/-- What is sent on the way to the sync pulse adds up. -/
theorem atSyncPulse_atSymbol (h : BitVec 2) (a b : List TraceEvent) (i : Fin 12) (s : State) :
    atSyncPulse h b (atSymbol i a s) = atSyncPulse h (a ++ b) s := by
  simp [atSyncPulse, atSymbol, drivenLow, linesWrite_linesWrite, totalWait_append, Nat.add_mul, Nat.add_assoc]

theorem symbol_run_next (hs : Undisturbed s) (hst : s.st = .emittingSymbol) (hh : s.h = 0#2)
    (ht : tritOf (tritsel s.build.txOrder s.acc s.i) = some t) (hi : s.i.val < 11) :
    BusyRun 4 s (atSymbol ⟨s.i.val + 1, by omega⟩ (symbolTrace s.lPin t s.lPeriod) s) := by
  have hmoved : afterEmit { drivenLow (symbolTrace s.lPin t s.lPeriod) (readTrit s) with h := 3#2 } =
      atSymbol ⟨s.i.val + 1, by omega⟩ (symbolTrace s.lPin t s.lPeriod) s := dif_pos hi
  exact hmoved ▸ symbol_run hs hst hh ht

theorem symbol_run_last (hs : Undisturbed s) (hst : s.st = .emittingSymbol) (hh : s.h = 0#2)
    (ht : tritOf (tritsel s.build.txOrder s.acc s.i) = some t) (hi : s.i = 11) :
    BusyRun 4 s (atSyncPulse 0#2 (symbolTrace s.lPin t s.lPeriod) s) := by
  have hlast : ¬ s.i.val < 11 := by simp [hi]
  have hmoved : afterEmit { drivenLow (symbolTrace s.lPin t s.lPeriod) (readTrit s) with h := 3#2 } =
      atSyncPulse 0#2 (symbolTrace s.lPin t s.lPeriod) s := by
    refine (dif_neg hlast).trans ?_
    simp [atSyncPulse, drivenLow, hi]
  exact hmoved ▸ symbol_run hs hst hh ht

theorem cursors_drop (i : Fin 12) : cursors.drop i.val = i :: cursors.drop (i.val + 1) := by
  revert i; decide

/-- The symbols of a telegram, from the cursor on (R141). -/
theorem symbols_run {trits : List Trit} : ∀ {s : State}, Undisturbed s → s.st = .emittingSymbol → s.h = 0#2 →
    tritsAt s.build.txOrder s.acc (cursors.drop s.i.val) = some trits →
    BusyRun (trits.length * 4) s (atSyncPulse 0#2 (trits.flatMap fun t => symbolTrace s.lPin t s.lPeriod) s) := by
  induction trits with
  | nil =>
    intro s _ _ _ htrits
    rw [cursors_drop, tritsAt_cons_eq_some] at htrits
    obtain ⟨_, _, _, _, hnil⟩ := htrits
    cases hnil
  | cons t ts ih =>
    intro s hs hst hh htrits
    rw [cursors_drop, tritsAt_cons_eq_some] at htrits
    obtain ⟨_, ht, _, hrest, hcons⟩ := htrits
    cases hcons
    rw [List.length_cons, Nat.succ_mul, Nat.add_comm, List.flatMap_cons]
    by_cases hi : s.i.val < 11
    · have hsymbol := symbol_run_next hs hst hh ht hi
      have hsymbols := ih (s := atSymbol ⟨s.i.val + 1, by omega⟩ (symbolTrace s.lPin t s.lPeriod) s)
        { hs with } hst rfl hrest
      rw [atSyncPulse_atSymbol] at hsymbols
      exact hsymbol.trans hsymbols
    · have hi : s.i = 11 := by omega
      have hts : ts = [] := by simpa [hi, cursors, tritsAt] using hrest.symm
      rw [hts, List.flatMap_nil, List.append_nil]
      exact symbol_run_last hs hst hh ht hi

/-- The high and the low hold of the sync pulse (R142). -/
theorem syncHolds_run (hs : Undisturbed s) (hst : s.st = .syncPulse) (hh : s.h = 0#2) :
    BusyRun 2 s
      (endTelegram (holdEvent false Config.mSyncLow { holdEvent true Config.mSyncHigh s with h := 1#2 })) := by
  have hhigh : BusyRun 1 s { holdEvent true Config.mSyncHigh s with h := 1#2 } :=
    .of_step (by simp [hst]) ((hs.step_eq hst).trans (execSync_high hst hs.no_hold hs.event_level hh))
  have hs' : Undisturbed { holdEvent true Config.mSyncHigh s with h := 1#2 } := { hs with }
  have hlow : BusyRun 1 { holdEvent true Config.mSyncHigh s with h := 1#2 } _ :=
    .of_step (by simp [hst]) ((hs'.step_eq hst).trans (execSync_low hst hs'.no_hold hs'.event_level rfl))
  exact hhigh.trans hlow

theorem sync_run (hs : Undisturbed s) (events : List TraceEvent) :
    BusyRun 2 (atSyncPulse 0#2 events s)
      (endTelegram (atSyncPulse 1#2 (events ++ syncTrace s.lPin s.lPeriod) s)) := by
  have hboth : holdEvent false Config.mSyncLow
      { holdEvent true Config.mSyncHigh (atSyncPulse 0#2 events s) with h := 1#2 } =
        atSyncPulse 1#2 (events ++ syncTrace s.lPin s.lPeriod) s := by
    simp [holdEvent_eq, atSyncPulse, drivenLow, linesWrite_linesWrite, totalWait_append, syncTrace, totalWait,
      Nat.add_mul, Nat.add_assoc]
  rw [← hboth]
  exact syncHolds_run (s := atSyncPulse 0#2 events s) { hs with } rfl rfl

/-- `s` after the holds of a telegram, before `NEXT` or `FINISH` (R142). -/
def telegramHeld (trits : List Trit) (s : State) : State :=
  atSyncPulse 1#2 (telegramTrace s.lPin trits s.lPeriod) s

/-- One telegram: `REPEATING`, twelve symbols, the sync pulse (R151). -/
theorem telegram_run (hs : Undisturbed s) (hst : s.st = .repeating) {trits : List Trit}
    (ht : tritsOf s.build.txOrder s.acc = some trits) : BusyRun 51 s (endTelegram (telegramHeld trits s)) := by
  have hlen : trits.length = 12 := length_of_tritsAt ht
  have hrepeating : BusyRun 1 s { s with i := 0, h := 0#2, st := .emittingSymbol } :=
    .of_step (by simp [hst]) ((hs.step_eq hst).trans (if_pos ⟨hst, hs.no_hold⟩))
  have hsymbols := symbols_run (s := { s with i := 0, h := 0#2, st := .emittingSymbol }) { hs with } rfl rfl ht
  rw [hlen] at hsymbols
  exact (hrepeating.trans hsymbols).trans (sync_run hs _)

/-! ## A request -/

theorem endTelegram_next {trits : List Trit} (hk : s.k.toNat + 1 < s.reps.toNat) :
    endTelegram (telegramHeld trits s) = goNext (telegramHeld trits s) := if_pos hk

theorem endTelegram_last {trits : List Trit} (hk : s.k.toNat + 1 = s.reps.toNat) :
    endTelegram (telegramHeld trits s) = finishRequest (telegramHeld trits s) := if_neg hk.not_lt

/-- `s` after its last `n` telegrams and the end of the request. -/
def requestEnd (n : Nat) (trits : List Trit) (s : State) : State :=
  finishRequest { atSyncPulse 1#2 (telegramsTrace n s.lPin trits s.lPeriod) s with
    k := BitVec.ofNat 7 (s.reps.toNat - 1) }

/-- All telegrams of a request end it where the request as one function does (R151). -/
theorem requestEnd_reps (trits : List Trit) (s : State) :
    requestEnd s.reps.toNat trits s = afterTelegrams trits s := by
  simp [requestEnd, afterTelegrams, atSyncPulse, drivenLow, finishRequest, forceLow, setOutput, linesWrite_linesWrite]

/-- The last telegram ends the request (R148). -/
theorem requestEnd_one {trits : List Trit} (hk : s.k.toNat + 1 = s.reps.toNat) :
    requestEnd 1 trits s = finishRequest (telegramHeld trits s) := by
  have hcount : BitVec.ofNat 7 (s.reps.toNat - 1) = s.k := by rw [← hk]; simp
  have hone : telegramsTrace 1 s.lPin trits s.lPeriod = telegramTrace s.lPin trits s.lPeriod := by
    simp [telegramsTrace]
  rw [requestEnd, hcount, hone]
  rfl

/-- A telegram before the others adds its trace (R147). -/
theorem requestEnd_succ (n : Nat) (trits : List Trit) (s : State) :
    requestEnd (n + 1) trits s = requestEnd n trits (goNext (telegramHeld trits s)) := by
  rw [requestEnd, telegramsTrace_succ]
  simp [requestEnd, telegramHeld, goNext, atSyncPulse, drivenLow, linesWrite_linesWrite, totalWait_append, Nat.add_mul,
    Nat.add_assoc]

/-- The telegrams left of a request, one after another (R147, R148). -/
theorem request_run {trits : List Trit} (n : Nat) : ∀ {s : State}, Undisturbed s → s.st = .repeating →
    tritsOf s.build.txOrder s.acc = some trits → s.reps.toNat ≤ 128 → s.k.toNat + (n + 1) = s.reps.toNat →
    BusyRun ((n + 1) * 51) s (requestEnd (n + 1) trits s) := by
  induction n with
  | zero =>
    intro s hs hst ht _ hk
    rw [requestEnd_one hk, ← endTelegram_last hk]
    exact telegram_run hs hst ht
  | succ n ih =>
    intro s hs hst ht hreps hk
    have hcount : (s.k + 1#7).toNat + (n + 1) = s.reps.toNat := by bv_omega
    have htelegram := telegram_run hs hst ht
    rw [endTelegram_next (by omega)] at htelegram
    have hrest := ih (s := goNext (telegramHeld trits s)) { hs with } rfl ht hreps hcount
    rw [requestEnd_succ, Nat.succ_mul, Nat.add_comm]
    exact htelegram.trans hrest

/-- The whole of an accepted request, from the state its `START` leaves (R157). -/
theorem acceptedRequest_run (hs : Undisturbed s) (r : Request) (hg : GatePasses r.rep s.repLimit) {trits : List Trit}
    (ht : tritsOf s.build.txOrder (encodeAcc r.code) = some trits) :
    BusyRun (51 * 2 ^ r.rep.toInt.toNat) (acceptedRequest r s) (afterTelegrams trits (acceptedRequest r s)) := by
  have hreps := acceptedRequest_reps r s hg
  have hpos := Nat.two_pow_pos r.rep.toInt.toNat
  have hle : 2 ^ r.rep.toInt.toNat ≤ 2 ^ 7 := by
    obtain ⟨-, h7, -⟩ := hg
    exact Nat.pow_le_pow_right (by decide) (by omega)
  have ht' : tritsOf (acceptedRequest r s).build.txOrder (acceptedRequest r s).acc = some trits := by
    rw [acceptedRequest_acc]; exact ht
  have hk : (acceptedRequest r s).k.toNat = 0 := rfl
  have hrun := request_run (s := acceptedRequest r s) (2 ^ r.rep.toInt.toNat - 1) { hs with } rfl ht' (by omega)
    (by omega)
  rw [Nat.sub_add_cancel hpos, Nat.mul_comm] at hrun
  rw [← requestEnd_reps, hreps]
  exact hrun

end

/-- Settles O42: 51 steps a telegram lead to the very state that the request as one function gives. -/
theorem stateMachineAgreesWithTx : Obligations.StateMachineAgreesWithTx := by
  unfold Obligations.StateMachineAgreesWithTx
  intro v s hst hhact htiming hag
  refine ⟨fun hg => ?_, fun hg => ?_⟩
  · obtain ⟨trits, ht⟩ := exists_tritsOf_encodeAcc s.build.txOrder s.code
    obtain ⟨hend, hbusy⟩ := acceptedRequest_run ⟨hag, hhact, htiming⟩ ⟨s.pin, s.code, s.period, s.repeatExp⟩ hg ht
    exact ⟨_, _, _, startRequest_accept hst hg, hend, execTx_accept hst hhact hg ht, rfl, rfl, rfl, rfl, rfl, hbusy⟩
  · exact (execTx_reject hst hhact hg).trans (startRequest_reject hst hg).symm

end Sys2Proof.Machine
end

section
/-! THE END OF A REQUEST: a request ends by a reset or by `FINISH` after the last sync pulse, and either forces its line
low; `RESULT = Ok` is written by `FINISH` only (R130, R148, R149, R150, R240). -/

namespace Sys2Proof.Machine

section
variable {s t : State}

/-! ## `RESULT = Ok` -/

/-- The operations that write `RESULT = Ok`: `FINISH`, and those whose tail it is (R149). -/
def writesOk : Instr → Bool
  | .finish | .sync | .tx _ _ _ _ => true
  | _ => false

/-- The trace ends with the force-low of `line`, which is low (R131). -/
def EndsLow (line : Word) (t : State) : Prop :=
  (∃ events : List TraceEvent, t.trace = events ++ [TraceEvent.set line false]) ∧
    linesRead line.toNat t.lines = some false

/-- A request has just ended with its final force-low (R148). -/
def FinishedLow (t : State) : Prop := busy t = false ∧ t.out = false ∧ EndsLow t.lPin t

theorem forceLow_endsLow (s : State) : EndsLow s.lPin (forceLow s) := ⟨⟨s.trace, rfl⟩, linesRead_forceLow s⟩

theorem finishRequest_finishedLow (s : State) : FinishedLow (finishRequest s) := ⟨rfl, rfl, forceLow_endsLow s⟩

theorem hostWrite_result (n : BitVec 3) (v : Word) (s : State) : (hostWrite n v s).result = s.result := by
  rw [hostWrite_eq_onRegisters]; rfl

theorem runProgram_result (p : List (Level × BitVec 5)) (s : State) : (runProgram p s).result = s.result := by
  induction p generalizing s with
  | nil => rfl
  | cons d p ih => exact ih (holdEvent d.1 d.2 s)

theorem gateRequest_result_ne_ok (hs : s.result ≠ .ok) : (gateRequest s).result ≠ .ok := by
  unfold gateRequest
  split
  · exact hs
  · nofun

theorem startRequest_result_ne_ok (h : startRequest s = .next t) : t.result ≠ .ok := by
  obtain ⟨-, ⟨-, rfl⟩ | ⟨-, rfl⟩⟩ := startRequest_cases h <;> nofun

theorem afterEmit_result (s : State) : (afterEmit s).result = s.result := by
  rw [afterEmit_frame]

theorem sequencerHold_result {after : State → State} (l : Level) (m : BitVec 5)
    (hafter : ∀ u, (after u).result = u.result) (s : State) : (sequencerHold l m after s).result = s.result := by
  unfold sequencerHold
  split
  · exact hafter (holdEvent l m s)
  · rfl

theorem afterSync_finishedLow (hs : s.result ≠ .ok) (hok : (afterSync s).result = .ok) :
    FinishedLow (afterSync s) := by
  obtain ⟨-, heq⟩ | ⟨-, -, heq⟩ | ⟨-, -, heq⟩ := afterSync_cases s <;> rw [heq] at hok ⊢
  · exact absurd hok hs
  · exact absurd hok hs
  · exact finishRequest_finishedLow s

theorem endHold_finishedLow (hs : s.result ≠ .ok) (hok : (endHold s).result = .ok) : FinishedLow (endHold s) := by
  unfold endHold afterHold at hok ⊢
  split at hok
  · exact absurd hok hs
  · exact absurd hok hs
  · exact absurd ((afterEmit_result _).symm.trans hok) hs
  · exact afterSync_finishedLow (s := { emitHeld s with hact := false, held := 0#37 }) hs hok

theorem next_result_ne_ok {u : State} (hu : u.result ≠ .ok) (h : (.next u : Out) = .next t) : t.result ≠ .ok := by
  cases h; exact hu

theorem unlessInHold_result_ne_ok {u : State} (hu : u.result ≠ .ok) (h : unlessInHold s u = .next t) :
    t.result ≠ .ok := by
  obtain ⟨-, rfl⟩ := unlessInHold_cases h
  exact hu

theorem execHold_result_ne_ok {l : Level} {m : BitVec 5} (hs : s.result ≠ .ok) (h : execHold l m s = .next t) :
    t.result ≠ .ok := by
  refine unlessInHold_result_ne_ok ?_ h
  split <;> exact hs

theorem execEmit_result_ne_ok (hs : s.result ≠ .ok) (h : execEmit s = .next t) : t.result ≠ .ok := by
  obtain ⟨-, -, hold, -, rfl⟩ := execEmit_cases h
  rw [sequencerHold_result hold.1 hold.2 afterEmit_result]
  exact hs

theorem execTick_result_ne_ok (hs : s.result ≠ .ok) (h : execTick s = .next t) : t.result ≠ .ok := by
  obtain ⟨-, ⟨-, rfl⟩ | ⟨-, rfl⟩⟩ := execTick_cases h <;> exact hs

theorem execParse_result_ne_ok {text : List Char} (hs : s.result ≠ .ok) (h : execParse text s = .next t) :
    t.result ≠ .ok := by
  unfold execParse at h
  split at h
  · cases h; exact hs
  · cases h

/-- No other operation writes `RESULT = Ok` (R149). -/
theorem exec_result_ne_ok {i : Instr} (hi : writesOk i = false) (hs : s.result ≠ .ok) (h : exec i s = .next t) :
    t.result ≠ .ok := by
  cases i with
  | finish | sync | tx pin code period rep => cases hi
  | wrPin v | wrCode v | wrPeriod v | wrRepeat v | wrRepLimit v | wrNopCtrl v | wrNopStatus v | wrNopUnused v =>
    exact next_result_ne_ok ((hostWrite_result _ v s).trans_ne hs) h
  | rdPin x | rdCode x | rdPeriod x | rdRepeat x | rdRepLimit x | rdZeroCtrl x | rdStatus x | rdZeroUnused x =>
    exact next_result_ne_ok (u := hostRead _ s) hs h
  | start v => exact startRequest_result_ne_ok h
  | parse text => exact execParse_result_ne_ok hs h
  | mask code | encode code | encStep | tritsel | forceLow => exact unlessInHold_result_ne_ok (by exact hs) h
  | sym0 | sym1 | sym2 => exact unlessInHold_result_ne_ok ((runProgram_result _ s).trans_ne hs) h
  | hold l m => exact execHold_result_ne_ok hs h
  | emit => exact execEmit_result_ne_ok hs h
  | tick => exact execTick_result_ne_ok hs h
  | gate => exact unlessInHold_result_ne_ok (gateRequest_result_ne_ok hs) h
  | accept => exact unlessInHold_result_ne_ok (u := acceptRequest s) hs (guarded_next h).2
  | idle => exact unlessInHold_result_ne_ok hs (guarded_next h).2
  | repeating => exact next_result_ne_ok (by exact hs) (guarded_next h).2
  | nextTelegram => exact next_result_ne_ok (u := goNext s) hs (guarded_next h).2
  | reset => cases h; nofun

theorem execSync_finishedLow (hs : s.result ≠ .ok) (h : execSync s = .next t) (hok : t.result = .ok) :
    FinishedLow t := by
  obtain ⟨-, -, rfl⟩ := execSync_cases h
  cases hb : s.build.timing with
  | event =>
    rw [sequencerHold_event hb] at hok ⊢
    exact afterSync_finishedLow (s := holdEvent (syncHold s).1 (syncHold s).2 s) hs hok
  | tick =>
    rw [sequencerHold_tick hb] at hok
    exact absurd hok hs

theorem execTx_finishedLow {pin code period rep : Word} (h : execTx pin code period rep s = .next t)
    (hok : t.result = .ok) : FinishedLow t := by
  obtain ⟨-, a, hstart, ⟨-, rfl⟩ | ⟨-, trits, -, rfl⟩⟩ := execTx_cases h
  · exact absurd hok (startRequest_result_ne_ok hstart)
  · exact ⟨rfl, rfl, ⟨_, rfl⟩, linesRead_forceLow a⟩

/-- Whatever operation writes `RESULT = Ok`, the request has ended (R149). -/
theorem exec_finishedLow {i : Instr} (hs : s.result ≠ .ok) (h : exec i s = .next t) (hok : t.result = .ok) :
    FinishedLow t := by
  cases hi : writesOk i with
  | false => exact absurd hok (exec_result_ne_ok hi hs h)
  | true =>
    cases i with
    | finish =>
      obtain ⟨-, h⟩ := guarded_next h
      cases h
      exact finishRequest_finishedLow s
    | sync => exact execSync_finishedLow hs h hok
    | tx pin code period rep => exact execTx_finishedLow h hok
    | _ => cases hi

theorem step_finishedLow (hs : s.result ≠ .ok) (h : step s = .next t) (hok : t.result = .ok) : FinishedLow t := by
  obtain ⟨w, rest, i, -, -, h⟩ | ⟨s₀, -, h⟩ | ⟨ag, -, ⟨-, -, rfl⟩ | ⟨-, -, h⟩ | ⟨-, h⟩⟩ := step_cases h
  · exact exec_finishedLow (s := { s with agenda := rest }) hs h hok
  · cases h; cases hok
  · exact endHold_finishedLow (s := { s with agenda := ag }) hs hok
  · exact exec_finishedLow (s := { s with agenda := ag }) hs h hok
  · exact exec_finishedLow (s := { s with agenda := ag }) hs h hok

/-! ## The ends of a request -/

/-- A reset is taken in `s₀`: as the pending input, over another input, or some ticks from now (R217, R243). -/
def ResetTaken (s s₀ : State) : Prop :=
  (∃ rest, s.agenda = .input (.event .reset) :: rest ∧ s₀ = { s with agenda := rest }) ∨ ResetFrom s s₀

/-- The low hold of the last telegram's sync pulse has ended, and `FINISH` has followed (R142, R148). -/
def Completes (s t : State) : Prop :=
  s.st = .syncPulse ∧ s.h ≠ 0#2 ∧ ¬ s.k.toNat + 1 < s.reps.toNat ∧ ∃ u : State, u.lPin = s.lPin ∧ t = finishRequest u

theorem hostWrite_st (n : BitVec 3) (v : Word) (s : State) : (hostWrite n v s).st = s.st := by
  rw [hostWrite_eq_onRegisters]; rfl

theorem execParse_st {text : List Char} (h : execParse text s = .next t) : t.st = s.st := by
  unfold execParse at h
  split at h
  · cases h; rfl
  · cases h

/-- Of the inputs only a reset ends a request: a `START` or `TX` within it is refused (R250). -/
theorem input_st {w : OpWord} {i : Instr} (hw : fromOutside w = true) (hd : decode w = .ok i) (hs : s.st ≠ .idle)
    (h : exec i s = .next t) : t.st = s.st ∨ w = .event .reset := by
  unfold fromOutside at hw
  split at hw
  case h_1 w =>
    cases hd
    obtain ⟨n, v, hexec⟩ | ⟨n, hexec⟩ | hexec := exec_decodeHost w s <;> rw [hexec] at h
    · cases h; exact .inl (hostWrite_st n v s)
    · cases h; exact .inl rfl
    · exact absurd (startRequest_cases h).1 hs
  case h_2 w => cases hd; exact absurd (execTx_enabled h).1 hs
  case h_3 text =>
    simp only [decode] at hd
    split at hd
    · cases hd; exact .inl (execParse_st h)
    · cases hd
  case h_4 =>
    cases hd
    obtain ⟨-, ⟨-, rfl⟩ | ⟨-, rfl⟩⟩ := execTick_cases h <;> exact .inl rfl
  case h_5 => exact .inr rfl
  all_goals cases hw

theorem afterEmit_st_ne_idle (hst : s.st = .emittingSymbol) : (afterEmit s).st ≠ .idle := by
  obtain ⟨-, heq⟩ | ⟨-, st, i, hst', heq⟩ := afterEmit_cases s <;> rw [heq]
  · simp [hst]
  · obtain rfl | rfl := hst' <;> simp [hst]

/-- The position update after a hold leads to `Idle` at the end of the last telegram only (R136, R142). -/
theorem afterHold_completes (hst : s.st ≠ .idle) (ht : (afterHold s).st = .idle) : Completes s (afterHold s) := by
  unfold afterHold at ht ⊢
  split at ht
  · exact absurd ‹_› hst
  · exact absurd ht hst
  · exact absurd ht (afterEmit_st_ne_idle ‹_›)
  · next hsync =>
    obtain ⟨-, heq⟩ | ⟨-, -, heq⟩ | ⟨hh, hk, heq⟩ := afterSync_cases s <;> rw [heq] at ht ⊢
    · exact absurd ht hst
    · cases ht
    · exact ⟨hsync, hh, hk, s, rfl, rfl⟩

theorem endHold_completes (hst : s.st ≠ .idle) (ht : (endHold s).st = .idle) : Completes s (endHold s) :=
  afterHold_completes (s := { emitHeld s with hact := false, held := 0#37 }) hst ht

theorem sequencerHold_completes {l : Level} {m : BitVec 5} {after : State → State} (hst : s.st ≠ .idle)
    (hafter : ∀ u : State, u.st = s.st → after u = afterHold u) (ht : (sequencerHold l m after s).st = .idle) :
    Completes s (sequencerHold l m after s) := by
  cases hb : s.build.timing with
  | event =>
    rw [sequencerHold_event hb, hafter (holdEvent l m s) rfl] at ht ⊢
    exact afterHold_completes (s := holdEvent l m s) hst ht
  | tick =>
    rw [sequencerHold_tick hb] at ht
    exact absurd ht hst

/-- Of the steps that `STATE` selects only the last ends a request (R92). -/
theorem sequencerStep_completes (hst : s.st ≠ .idle) (ht : t.st = .idle) (h : exec (match s.st with
    | .idle => .idle | .repeating => .repeating | .emittingSymbol => .emit | .syncPulse => .sync) s = .next t) :
    Completes s t := by
  cases hs : s.st <;> rw [hs] at h
  case idle => exact absurd hs hst
  case repeating =>
    obtain ⟨-, h⟩ := guarded_next h
    cases h
    cases ht
  case emittingSymbol =>
    obtain ⟨-, -, hold, -, rfl⟩ := execEmit_cases h
    exact sequencerHold_completes (s := readTrit s) hst (fun u hu => by simp [afterHold, hu.trans hs]) ht
  case syncPulse =>
    obtain ⟨-, -, rfl⟩ := execSync_cases h
    exact sequencerHold_completes hst (fun u hu => by simp [afterHold, hu.trans hs]) ht

/-- Everything that ends a request (R130). -/
theorem step_ends_request (hag : s.agenda.all turnFromOutside = true) (h : step s = .next t) (hst : s.st ≠ .idle)
    (ht : t.st = .idle) : (∃ s₀, ResetTaken s s₀ ∧ exec .reset s₀ = .next t) ∨ Completes s t := by
  obtain ⟨w, rest, i, hhead, hd, h⟩ | ⟨s₀, hfrom, h⟩ | ⟨ag, -, ⟨-, -, rfl⟩ | ⟨-, -, h⟩ | ⟨-, h⟩⟩ := step_cases h
  · rw [hhead, List.all_cons, Bool.and_eq_true] at hag
    obtain hkept | rfl := input_st (s := { s with agenda := rest }) hag.1 hd hst h
    · exact absurd (hkept.symm.trans ht) hst
    · cases hd
      exact .inl ⟨_, .inl ⟨rest, hhead, rfl⟩, h⟩
  · exact .inl ⟨s₀, .inr hfrom, h⟩
  · exact .inr (endHold_completes (s := { s with agenda := ag }) hst ht)
  · obtain ⟨-, ⟨-, rfl⟩ | ⟨-, rfl⟩⟩ := execTick_cases h <;> exact absurd ht hst
  · exact .inr (sequencerStep_completes (s := { s with agenda := ag }) hst ht h)

/-- The last hold of a request on the numbers, in a state that meets the invariant (R30, R142). -/
theorem Completes.last_hold (h : Completes s t) (hs : Inv s) :
    s.st = .syncPulse ∧ s.h = 1#2 ∧ s.k.toNat + 1 = s.reps.toNat ∧ t.result = .ok := by
  obtain ⟨hst, hh, hk, u, -, rfl⟩ := h
  have hlt := hs.sync_holds hst
  have hleft := (hs.inRequest (by simp [hst])).telegrams_left
  exact ⟨hst, by bv_omega, by omega, rfl⟩

/-! ## The line at the end -/

theorem Completes.endsLow (h : Completes s t) : EndsLow s.lPin t := by
  obtain ⟨-, -, -, u, hpin, rfl⟩ := h
  rw [← hpin]
  exact forceLow_endsLow u

@[simp] theorem cutHold_st (s : State) : (cutHold s).st = s.st := by
  unfold cutHold
  split <;> rfl

@[simp] theorem cutHold_lPin (s : State) : (cutHold s).lPin = s.lPin := by
  unfold cutHold
  split <;> rfl

@[simp] theorem cutHold_agenda (s : State) : (cutHold s).agenda = s.agenda := by
  unfold cutHold
  split <;> rfl

@[simp] theorem dropLine_agenda (s : State) : (dropLine s).agenda = s.agenda := by
  unfold dropLine
  split <;> rfl

@[simp] theorem holdSource_st (s : State) : (holdSource s).st = s.st := by
  unfold holdSource
  split <;> rfl

@[simp] theorem holdSource_lPin (s : State) : (holdSource s).lPin = s.lPin := by
  unfold holdSource
  split <;> rfl

@[simp] theorem holdSource_agenda (s : State) : (holdSource s).agenda = s.agenda := by
  unfold holdSource
  split <;> rfl

/-- `RESET` within a request forces its line low, after the wait of the hold that it cuts (R240, R243). -/
theorem execReset_endsLow (hst : s.st ≠ .idle) (h : exec .reset s = .next t) : EndsLow s.lPin t := by
  have hdrop : dropLine (cutHold s) = forceLow (cutHold s) := if_neg (by simpa using hst)
  cases h
  rw [hdrop, ← cutHold_lPin s]
  exact forceLow_endsLow (cutHold s)

/-- A reset is taken in the request's own state, position and line (R243). -/
theorem ResetTaken.request_eq {s₀ : State} (h : ResetTaken s s₀) : s₀.st = s.st ∧ s₀.lPin = s.lPin := by
  obtain ⟨rest, -, rfl⟩ | ⟨w, rest, -, rfl⟩ | ⟨n, rest, -, rfl | ⟨-, -, rfl⟩ | ⟨hold, -, -, -, rfl⟩⟩ := h
  · exact ⟨rfl, rfl⟩
  · exact ⟨rfl, rfl⟩
  · exact ⟨rfl, rfl⟩
  · exact ⟨rfl, rfl⟩
  · simp

/-- What stood on the agenda where a reset was taken, and what is left of it (R217, R243). -/
theorem ResetTaken.agenda_cases {s₀ : State} (h : ResetTaken s s₀) :
    s.agenda = .input (.event .reset) :: s₀.agenda ∨ (∃ w, s.agenda = .resetWins w :: s₀.agenda) ∨
      ∃ n, s.agenda = .resetAfter n :: s₀.agenda := by
  obtain ⟨rest, ha, rfl⟩ | ⟨w, rest, ha, rfl⟩ | ⟨n, rest, ha, rfl | ⟨-, -, rfl⟩ | ⟨hold, -, -, -, rfl⟩⟩ := h
  · exact .inl ha
  · exact .inr (.inl ⟨w, ha⟩)
  · exact .inr (.inr ⟨n, ha⟩)
  · exact .inr (.inr ⟨n, ha⟩)
  · exact .inr (.inr ⟨n, by simpa using ha⟩)

theorem execReset_agenda (h : exec .reset s = .next t) : t.agenda = s.agenda := by
  cases h; simp

end

/-- Settles O51: each end of a request, on the agenda or at the position. -/
theorem onlyResetOrCompletionEndsRequest : Obligations.OnlyResetOrCompletionEndsRequest := by
  unfold Obligations.OnlyResetOrCompletionEndsRequest
  intro s t hs h hst ht
  obtain ⟨s₀, htaken, hreset⟩ | hcompletes := step_ends_request hs.agenda_outside h hst ht
  · obtain ha | ⟨w, ha⟩ | ⟨n, ha⟩ := htaken.agenda_cases
    · exact .inl ⟨_, ha⟩
    · exact .inr (.inl ⟨w, _, ha⟩)
    · exact .inr (.inr (.inl ⟨n, _, ha, execReset_agenda hreset⟩))
  · exact .inr (.inr (.inr (hcompletes.last_hold hs)))

/-- Settles O52: every operation that writes `Ok` ends with `FINISH`, whose last act is the force-low. -/
theorem okIsWrittenAfterFinalForceLow : Obligations.OkIsWrittenAfterFinalForceLow := by
  unfold Obligations.OkIsWrittenAfterFinalForceLow
  refine ⟨fun i s t h hs hok => ?_, fun s t h hs hok => step_finishedLow hs h hok⟩
  cases hi : writesOk i with
  | false => exact absurd hok (exec_result_ne_ok hi hs h)
  | true =>
    cases i with
    | finish | sync | tx pin code period rep => simp
    | _ => cases hi

/-- Settles O55: the invariant gives `OUT` in `Idle`; a reset and a completion both end with the force-low. -/
theorem endOfRequestLeavesLineLow : Obligations.EndOfRequestLeavesLineLow := by
  unfold Obligations.EndOfRequestLeavesLineLow
  intro s t hs h ht
  refine ⟨((step_inv hs h).idle_low ht).1, fun hst => ?_⟩
  obtain ⟨s₀, htaken, hreset⟩ | hcompletes := step_ends_request hs.agenda_outside h hst ht
  · obtain ⟨hst₀, hpin⟩ := htaken.request_eq
    rw [← hpin]
    exact execReset_endsLow (hst₀.trans_ne hst) hreset
  · exact hcompletes.endsLow

end Sys2Proof.Machine
end

section
/-! THE TIMING CONTROLLER: what `HOLD` and `TICK` do to the whole state, what runs while a hold is in progress, and how a
hold ends (R170 to R174). -/

namespace Sys2Proof.Machine

section
variable {s t : State}

/-! ## `HOLD` and `TICK` -/

theorem execHold_event (htiming : s.build.timing = .event) (hhact : s.hact = false) (l : Level) (m : BitVec 5) :
    execHold l m s = .next (holdEvent l m s) := by
  rw [execHold, htiming]
  exact unlessInHold_next hhact _

theorem execHold_tick (htiming : s.build.timing = .tick) (hhact : s.hact = false) (l : Level) (m : BitVec 5) :
    execHold l m s = .next (holdStart l m s) := by
  rw [execHold, htiming]
  exact unlessInHold_next hhact _

/-- `DLY` holds the whole duration of the hold (R41, R172). -/
theorem holdStart_dly_toNat (l : Level) (m : BitVec 5) (s : State) :
    (holdStart l m s).dly.toNat = duration m s.lPeriod * Config.ticksPerUs := by
  rw [holdStart_dly, BitVec.toNat_ofNat, Nat.mod_eq_of_lt]
  simpa [Config.ticksPerUs] using duration_lt m s.lPeriod

theorem execTick_inHold (hhact : s.hact = true) (hdly : s.dly ≠ 0#37) : execTick s = .next (tickHold s) := by
  simp [execTick, urgent, hhact, hdly]

theorem execTick_idle (hhact : s.hact = false) (hst : s.st = .idle) :
    execTick s = .next { s with now := s.now + 1 } := by
  simp [execTick, urgent, hhact, hst]

theorem execTick_urgent (hu : urgent s = true) : execTick s = .refused .notSelected := if_pos hu

/-! ## What runs in a hold -/

theorem hostWrite_now (n : BitVec 3) (v : Word) (s : State) : (hostWrite n v s).now = s.now := by
  rw [hostWrite_eq_onRegisters]
  rfl

theorem startRequest_now (h : startRequest s = .next t) : t.now = s.now := by
  obtain ⟨-, ⟨-, rfl⟩ | ⟨-, rfl⟩⟩ := startRequest_cases h <;> rfl

theorem execParse_now {text : List Char} (h : execParse text s = .next t) : t.now = s.now := by
  unfold execParse at h
  split at h
  · cases h; rfl
  · cases h

theorem execReset_now (h : execReset s = .next t) : t.now = s.now := by
  cases h
  have hcut : (cutHold s).now = s.now := by unfold cutHold; split <;> rfl
  have hdrop : (dropLine (cutHold s)).now = (cutHold s).now := by unfold dropLine; split <;> rfl
  exact hdrop.trans hcut

/-- Everything that runs while a hold is in progress; of it only `TICK` takes time (R170, R173, R174). -/
theorem exec_inHold {i : Instr} (hhact : s.hact = true) (h : exec i s = .next t) :
    (i = .tick ∧ s.dly ≠ 0#37) ∨
      (t.now = s.now ∧ (i = .reset ∨ (∃ w, encode i = .host w) ∨ ∃ text, i = .parse text)) := by
  have blocked {u : State} (h : unlessInHold s u = .next t) : False := by
    rw [unlessInHold_refused hhact] at h
    cases h
  have hbusy : ¬ s.hact = false := by simp [hhact]
  cases i with
  | tick =>
    obtain ⟨hurgent, -⟩ := execTick_cases h
    exact .inl ⟨rfl, by simpa [urgent, hhact] using hurgent⟩
  | reset => exact .inr ⟨execReset_now h, .inl rfl⟩
  | parse text => exact .inr ⟨execParse_now h, .inr (.inr ⟨text, rfl⟩)⟩
  | start v => exact .inr ⟨startRequest_now h, .inr (.inl ⟨_, rfl⟩)⟩
  | wrPin v | wrCode v | wrPeriod v | wrRepeat v | wrRepLimit v | wrNopCtrl v | wrNopStatus v | wrNopUnused v =>
    cases h
    exact .inr ⟨hostWrite_now _ v s, .inr (.inl ⟨_, rfl⟩)⟩
  | rdPin x | rdCode x | rdPeriod x | rdRepeat x | rdRepLimit x | rdZeroCtrl x | rdStatus x | rdZeroUnused x =>
    cases h
    exact .inr ⟨rfl, .inr (.inl ⟨_, rfl⟩)⟩
  | mask code | encode code | encStep | tritsel | forceLow | gate | sym0 | sym1 | sym2 | hold l m =>
    exact (blocked h).elim
  | idle | accept => exact (blocked (guarded_next h).2).elim
  | repeating =>
    obtain ⟨⟨-, hfree⟩, -⟩ := guarded_next h
    exact absurd hfree hbusy
  | nextTelegram | finish =>
    obtain ⟨⟨-, hfree, -⟩, -⟩ := guarded_next h
    exact absurd hfree hbusy
  | emit =>
    obtain ⟨-, hfree, -⟩ := execEmit_cases h
    exact absurd hfree hbusy
  | sync =>
    obtain ⟨-, hfree, -⟩ := execSync_cases h
    exact absurd hfree hbusy
  | tx pin code period rep => exact absurd (execTx_enabled h).2 hbusy

/-! ## The position update after a hold -/

theorem afterHold_emit (hst : s.st = .emittingSymbol) : afterHold s = afterEmit s := by simp [afterHold, hst]

theorem afterHold_sync (hst : s.st = .syncPulse) : afterHold s = afterSync s := by simp [afterHold, hst]

/-- Where a hold leads: within its telegram the position alone moves, after its telegram's last hold `NEXT` or `FINISH`
follows (R136, R142, R174). -/
theorem afterHold_cases (s : State) :
    (∃ st i h, (st = .repeating → s.st = .repeating) ∧ afterHold s = { s with st := st, i := i, h := h }) ∨
    (s.st = .syncPulse ∧ s.k.toNat + 1 < s.reps.toNat ∧ afterHold s = goNext s) ∨
    (s.st = .syncPulse ∧ afterHold s = finishRequest s) := by
  unfold afterHold
  split
  · exact .inl ⟨s.st, s.i, s.h, id, rfl⟩
  · exact .inl ⟨s.st, s.i, s.h, id, rfl⟩
  · next hst =>
    obtain ⟨-, heq⟩ | ⟨-, st, i, hst', heq⟩ := afterEmit_cases s
    · exact .inl ⟨s.st, s.i, _, id, heq⟩
    · refine .inl ⟨st, i, _, fun h => ?_, heq⟩
      obtain rfl | rfl := hst'
      · exact h
      · cases h
  · next hst =>
    obtain ⟨-, heq⟩ | ⟨-, hk, heq⟩ | ⟨-, -, heq⟩ := afterSync_cases s
    · exact .inl ⟨s.st, s.i, _, id, heq⟩
    · exact .inr (.inl ⟨hst, hk, heq⟩)
    · exact .inr (.inr ⟨hst, heq⟩)

theorem afterHold_hact (s : State) : (afterHold s).hact = s.hact := by
  obtain ⟨st, i, h, -, heq⟩ | ⟨-, -, heq⟩ | ⟨-, heq⟩ := afterHold_cases s <;> rw [heq] <;> rfl

theorem afterHold_now (s : State) : (afterHold s).now = s.now := by
  obtain ⟨st, i, h, -, heq⟩ | ⟨-, -, heq⟩ | ⟨-, heq⟩ := afterHold_cases s <;> rw [heq] <;> rfl

theorem afterHold_reps (s : State) : (afterHold s).reps = s.reps := by
  obtain ⟨st, i, h, -, heq⟩ | ⟨-, -, heq⟩ | ⟨-, heq⟩ := afterHold_cases s <;> rw [heq] <;> rfl

/-! ## The end of a hold -/

/-- A hold that has run out is over: its wait stands in the trace (R174). -/
def holdOver (s : State) : State :=
  { s with trace := s.trace ++ [.wait s.held.toNat], hact := false, held := 0#37 }

theorem endHold_eq (s : State) : endHold s = afterHold (holdOver s) := by
  simp [endHold, holdOver, emitHeld, Config.ticksPerUs]

theorem endHold_hact (s : State) : (endHold s).hact = false := afterHold_hact _

theorem endHold_now (s : State) : (endHold s).now = s.now := afterHold_now _

/-- On the sequencer's turn a hold that has run out ends (R174). -/
theorem step_sequencer_holdEnds {rest : List Turn} (hag : s.agenda = .sequencer :: rest) (hhact : s.hact = true)
    (hdly : s.dly = 0#37) : step s = .next (endHold { s with agenda := rest }) := by
  simp [step, fetch, hag, sequencerTurn_eq, hhact, hdly]

/-- Where a hold has run out no time passes in a step (R170, R174). -/
theorem step_now_of_holdOver (hhact : s.hact = true) (hdly : s.dly = 0#37) (h : step s = .next t) : t.now = s.now := by
  have hbusy : ¬ s.hact = false := by simp [hhact]
  obtain ⟨w, rest, i, -, -, h⟩ | ⟨s₀, hfrom, h⟩ | ⟨ag, -, ⟨-, -, rfl⟩ | ⟨-, hleft, -⟩ | ⟨hfree, -⟩⟩ := step_cases h
  · obtain ⟨-, hleft⟩ | ⟨hnow, -⟩ := exec_inHold (s := { s with agenda := rest }) hhact h
    · exact absurd hdly hleft
    · exact hnow
  · have hnow := execReset_now h
    obtain ⟨w, rest, -, rfl⟩ | ⟨n, rest, -, rfl | ⟨hfree, -⟩ | ⟨hold, hfree, -⟩⟩ := hfrom
    · exact hnow
    · exact hnow
    · exact absurd hfree hbusy
    · exact absurd hfree hbusy
  · exact endHold_now { s with agenda := ag }
  · exact absurd hdly hleft
  · exact absurd hfree hbusy

end

/-- Settles O30: the event-level `HOLD` as a whole state. -/
theorem holdSetsLineAndWaits : Obligations.HoldSetsLineAndWaits := by
  unfold Obligations.HoldSetsLineAndWaits
  intro l m s htiming hhact
  refine ⟨0#37, 0#37, (execHold_event htiming hhact l m).trans ?_⟩
  rw [holdEvent_eq]
  rfl

/-- Settles O31: each of the three operations leaves the same start of a hold. -/
theorem tickLevelHoldsStartAndBlock : Obligations.TickLevelHoldsStartAndBlock := by
  unfold Obligations.TickLevelHoldsStartAndBlock
  refine ⟨fun l m s htiming hhact => ?_, fun s htiming hhact => ⟨fun hst htrit => ?_, fun hst => ?_⟩⟩
  · exact ⟨_, 0#37, holdStart_dly_toNat l m s, execHold_tick htiming hhact l m⟩
  · obtain ⟨m, hhold, hm⟩ := emitHold_cases htrit
    refine ⟨m, tritsel s.build.txOrder s.acc s.i, holdStart (decide (s.h.toNat % 2 = 0)) m (readTrit s), hm,
      tritsel_toNat _ _ _, ?_, execHold_tick (s := readTrit s) htiming hhact _ m⟩
    rw [exec, execEmit, if_pos ⟨hst, hhact⟩, hhold]
    exact congrArg Host.Outcome.next (sequencerHold_tick (s := readTrit s) htiming _ m afterEmit)
  · refine ⟨holdStart (syncHold s).1 (syncHold s).2 s, ?_, execHold_tick htiming hhact _ _⟩
    rw [exec, execSync, if_pos ⟨hst, hhact⟩, sequencerHold_tick htiming]

/-- Settles O33: which of the four combinations are urgent. -/
theorem tickCountsHoldDown : Obligations.TickCountsHoldDown := by
  unfold Obligations.TickCountsHoldDown
  intro s
  refine ⟨fun hhact hdly => ⟨s.dly - 1#37, s.held + 1#37, by bv_omega, execTick_inHold hhact hdly⟩,
    execTick_idle, fun hhact hdly => execTick_urgent ?_, fun hhact hst => execTick_urgent ?_⟩
  · simp [urgent, hhact, hdly]
  · simp [urgent, hhact, hst]

/-- Settles O32: everything else is refused in a hold. -/
theorem holdBlocksAllButTicks : Obligations.HoldBlocksAllButTicks := by
  unfold Obligations.HoldBlocksAllButTicks
  intro i s t hhact h
  exact (exec_inHold hhact h).imp_right And.right

/-- Settles O34: the position update after a hold, in each place that a hold has. -/
theorem holdEndsWhenDelayIsZero : Obligations.HoldEndsWhenDelayIsZero := by
  unfold Obligations.HoldEndsWhenDelayIsZero
  intro s hag hhact hdly
  refine ⟨endHold s, (step_inHold hag hhact).trans (if_pos hdly), endHold_hact s, endHold_now s, ?_⟩
  rw [endHold_eq]
  refine ⟨fun hst => ?_, fun hst => ?_, fun hst hh => ?_, fun hst hh hk => ?_, fun hst hh hk => ?_⟩
  · obtain ⟨st, i, h, hpos, heq⟩ := afterEmit_moves (holdOver s)
    rw [show (holdOver s).st = .emittingSymbol from hst] at hpos
    rw [afterHold_emit (s := holdOver s) hst, heq]
    exact ⟨rfl, rfl, hpos⟩
  · rw [afterHold_sync (s := holdOver s) hst]
    obtain ⟨-, heq⟩ | ⟨-, -, heq⟩ | ⟨-, -, heq⟩ := afterSync_cases (holdOver s) <;> rw [heq] <;> rfl
  · have hhigh : afterSync (holdOver s) = { holdOver s with h := 1#2 } := if_pos hh
    rw [afterHold_sync (s := holdOver s) hst, hhigh]
    exact ⟨rfl, hst, rfl, rfl⟩
  · have hnext : afterSync (holdOver s) = goNext (holdOver s) := (if_neg hh).trans (if_pos hk)
    rw [afterHold_sync (s := holdOver s) hst, hnext]
    exact ⟨rfl, rfl, rfl, fun hlt => show (s.k + 1#7).toNat = _ by bv_omega⟩
  · have hlast : afterSync (holdOver s) = finishRequest (holdOver s) := (if_neg hh).trans (if_neg hk)
    rw [afterHold_sync (s := holdOver s) hst, hlast]
    refine ⟨?_, rfl, rfl, rfl, rfl⟩
    rw [finishRequest_trace, holdOver, List.append_assoc]
    rfl

/-- Settles O35: in a hold only a tick takes time, and none is left; a pending tick gives way to the sequencer. -/
theorem holdEndIsUrgent : Obligations.HoldEndIsUrgent := by
  unfold Obligations.HoldEndIsUrgent
  intro s t hhact hdly
  refine ⟨fun i h => ?_, step_now_of_holdOver hhact hdly, fun rest hag h => ?_⟩
  · obtain ⟨-, hleft⟩ | ⟨hnow, -⟩ := exec_inHold hhact h
    · exact absurd hdly hleft
    · exact hnow
  · obtain hag | hag := hag
    · rw [step_sequencer_holdEnds hag hhact hdly] at h
      cases h
      exact endHold_hact { s with agenda := rest }
    · have hurgent : urgent s = true := by simp [urgent, hhact, hdly]
      rw [step_tick_urgent hag hurgent, step_sequencer_holdEnds (s := { s with agenda := .sequencer :: s.agenda }) rfl hhact
        hdly] at h
      cases h
      exact endHold_hact s

end Sys2Proof.Machine
end

section
/-! THE TICK LEVEL AGREES WITH THE EVENT LEVEL: the start of a hold, its ticks and its end lead where the event-level hold
leads, and so the steps of a whole request do (R177). -/

namespace Sys2Proof.Machine

section
variable {s t u : State} {hold : Level × BitVec 5}

/-! ## One hold -/

/-- The ticks of a hold, with nothing pending (R173). -/
theorem runSteps_ticks (n : Nat) : ∀ {s : State}, s.agenda = [] → s.hact = true → s.dly.toNat = n →
    runSteps n s = .next { s with dly := 0#37, now := s.now + n, held := s.held + s.dly } := by
  induction n with
  | zero =>
    intro s _ _ hn
    have hdly : s.dly = 0#37 := BitVec.eq_of_toNat_eq hn
    rw [hdly, BitVec.add_zero, ← hdly]
    rfl
  | succ n ih =>
    intro s hag hhact hn
    have hdly : s.dly ≠ 0#37 := fun h => by simp [h] at hn
    have htick : step s = .next (tickHold s) :=
      (step_inHold hag hhact).trans ((if_neg hdly).trans (execTick_inHold hhact hdly))
    have hleft : (tickHold s).dly.toNat = n := by rw [tickHold_dly]; bv_omega
    have hheld : s.held + 1#37 + (s.dly - 1#37) = s.held + s.dly := by bv_omega
    rw [runSteps_succ htick, ih (s := tickHold s) hag hhact hleft]
    simp [tickHold, hheld, Nat.add_assoc, Nat.add_comm 1]

/-- From its start on, a hold of the tick level leads where the hold of the event level does, and the position moves. -/
theorem runSteps_holdStart (l : Level) (m : BitVec 5) (hag : s.agenda = []) (hhact : s.hact = false) :
    runSteps (duration m s.lPeriod * Config.ticksPerUs + 1) (holdStart l m s) =
      .next (afterHold (holdEvent l m s)) := by
  have hticks := runSteps_ticks _ (s := holdStart l m s) hag rfl (holdStart_dly_toNat l m s)
  have hover : holdOver { holdStart l m s with
      dly := 0#37, now := s.now + duration m s.lPeriod * Config.ticksPerUs, held := 0#37 + (holdStart l m s).dly } =
        holdEvent l m s := by
    rw [BitVec.zero_add, holdOver]
    simp [-holdStart_dly, holdStart_dly_toNat, holdEvent_eq, hhact, Config.ticksPerUs]
  rw [runSteps_add hticks, runSteps_one, step_inHold (by exact hag) rfl, if_pos rfl, endHold_eq, ← hover]
  rfl

/-- The hold at the sequencer's position, at either level (R136, R142). -/
theorem step_currentHold (hag : s.agenda = []) (hhact : s.hact = false) (hhold : currentHold s = some hold) :
    step s = .next (sequencerHold hold.1 hold.2 afterHold (holdSource s)) := by
  have hafter {after : State → State} {s' : State} (h : ∀ u : State, u.st = s'.st → after u = afterHold u) :
      sequencerHold hold.1 hold.2 after s' = sequencerHold hold.1 hold.2 afterHold s' := by
    unfold sequencerHold
    split
    · exact h _ rfl
    · rfl
  rw [step_sequencer hag hhact]
  cases hst : s.st with
  | idle | repeating => simp [currentHold, hst] at hhold
  | emittingSymbol =>
    have hemit : emitHold s = some hold := by simpa [currentHold, hst] using hhold
    rw [exec, execEmit, if_pos ⟨hst, hhact⟩, hemit, holdSource, if_pos hst]
    exact congrArg Host.Outcome.next (hafter fun u hu => (afterHold_emit (hu.trans hst)).symm)
  | syncPulse =>
    have hsync : syncHold s = hold := by simpa [currentHold, hst] using hhold
    rw [exec, execSync, if_pos ⟨hst, hhact⟩, hsync, holdSource, if_neg (by simp [hst])]
    exact congrArg Host.Outcome.next (hafter fun u hu => (afterHold_sync (hu.trans hst)).symm)

/-- The same state of a machine that performs holds at the tick level. -/
def atTickLevel (s : State) : State := { s with build := { s.build with timing := .tick } }

theorem exists_atTickLevel (htiming : s.build.timing = .tick) :
    ∃ s₀ : State, s₀.build.timing = .event ∧ s = atTickLevel s₀ := by
  refine ⟨{ s with build := { s.build with timing := .event } }, rfl, ?_⟩
  rw [atTickLevel, ← htiming]

theorem afterEmit_atTickLevel (s : State) : afterEmit (atTickLevel s) = atTickLevel (afterEmit s) := by
  unfold afterEmit
  rw [apply_ite atTickLevel, apply_dite atTickLevel]
  rfl

theorem afterSync_atTickLevel (s : State) : afterSync (atTickLevel s) = atTickLevel (afterSync s) := by
  unfold afterSync
  rw [apply_ite atTickLevel, apply_ite atTickLevel]
  rfl

theorem afterHold_atTickLevel (s : State) : afterHold (atTickLevel s) = atTickLevel (afterHold s) := by
  cases hst : s.st with
  | idle | repeating => simp [afterHold, atTickLevel, hst]
  | emittingSymbol => simpa [afterHold, atTickLevel, hst] using afterEmit_atTickLevel s
  | syncPulse => simpa [afterHold, atTickLevel, hst] using afterSync_atTickLevel s

theorem holdSource_atTickLevel (s : State) : holdSource (atTickLevel s) = atTickLevel (holdSource s) := by
  unfold holdSource
  rw [apply_ite atTickLevel]
  rfl

/-- `EMIT` has read its trit before its hold; nothing else differs (R136). -/
theorem holdSource_frame (s : State) : holdSource s = { s with tmp := (holdSource s).tmp } := by
  unfold holdSource
  split <;> rfl

theorem undisturbed_holdSource (hs : Undisturbed s) : Undisturbed (holdSource s) := by
  rw [holdSource_frame]
  exact { hs with }

@[simp] theorem holdSource_now (s : State) : (holdSource s).now = s.now := by rw [holdSource_frame]
@[simp] theorem holdSource_lPeriod (s : State) : (holdSource s).lPeriod = s.lPeriod := by rw [holdSource_frame]
@[simp] theorem holdSource_reps (s : State) : (holdSource s).reps = s.reps := by rw [holdSource_frame]
@[simp] theorem holdSource_k (s : State) : (holdSource s).k = s.k := by rw [holdSource_frame]

theorem undisturbed_holdEvent (l : Level) (m : BitVec 5) (hs : Undisturbed s) : Undisturbed (holdEvent l m s) :=
  { hs with }

theorem undisturbed_afterHold (hs : Undisturbed s) : Undisturbed (afterHold s) := by
  obtain ⟨st, i, h, -, heq⟩ | ⟨-, -, heq⟩ | ⟨-, heq⟩ := afterHold_cases s
  all_goals
    rw [heq]
    exact { hs with }

/-- The state that an event-level hold and its position update lead to. -/
def afterEventHold (hold : Level × BitVec 5) (s : State) : State := afterHold (holdEvent hold.1 hold.2 (holdSource s))

theorem afterEventHold_now (hold : Level × BitVec 5) (s : State) :
    (afterEventHold hold s).now = s.now + duration hold.2 s.lPeriod * Config.ticksPerUs := by
  rw [afterEventHold, afterHold_now, holdEvent_now, holdSource_now, holdSource_lPeriod]

theorem afterEventHold_reps (hold : Level × BitVec 5) (s : State) : (afterEventHold hold s).reps = s.reps := by
  rw [afterEventHold, afterHold_reps, holdEvent_reps, holdSource_reps]

theorem undisturbed_afterEventHold (hs : Undisturbed s) : Undisturbed (afterEventHold hold s) :=
  undisturbed_afterHold (undisturbed_holdEvent _ _ (undisturbed_holdSource hs))

theorem Undisturbed.step_eventHold (hs : Undisturbed s) (hhold : currentHold s = some hold) :
    step s = .next (afterEventHold hold s) := by
  rw [step_currentHold hs.agenda_empty hs.no_hold hhold, sequencerHold_event (undisturbed_holdSource hs).event_level]
  rfl

/-- A hold at the event level is one step; at the tick level it is a start, its ticks and an end (R171, R173, R174). -/
theorem Undisturbed.hold_atTickLevel (hs : Undisturbed s) (hhold : currentHold s = some hold) :
    runSteps (2 + ((afterEventHold hold s).now - s.now)) (atTickLevel s) =
      .next (atTickLevel (afterEventHold hold s)) := by
  have hsource := undisturbed_holdSource hs
  have hstart : step (atTickLevel s) = .next (holdStart hold.1 hold.2 (atTickLevel (holdSource s))) := by
    rw [step_currentHold (s := atTickLevel s) hs.agenda_empty hs.no_hold hhold, holdSource_atTickLevel,
      sequencerHold_tick rfl]
  have hrest := runSteps_holdStart (s := atTickLevel (holdSource s)) hold.1 hold.2 hsource.agenda_empty hsource.no_hold
  have hcount : 2 + ((afterEventHold hold s).now - s.now) =
      duration hold.2 (holdSource s).lPeriod * Config.ticksPerUs + 1 + 1 := by
    rw [afterEventHold_now, holdSource_lPeriod]
    omega
  rw [hcount, runSteps_succ hstart, afterEventHold, ← afterHold_atTickLevel]
  exact hrest

/-! ## A run within a request -/

/-- The telegrams a request has begun: the next of them with each `REPEATING` (R135, R147). -/
def telegramsBegun (s : State) : Nat := s.k.toNat + if s.st = .repeating then 0 else 1

/-- Within a request the sequencer performs `REPEATING` or a hold (R92). -/
theorem Undisturbed.step_cases (hs : Undisturbed s) (hbusy : s.st ≠ .idle) (h : step s = .next u) :
    (s.st = .repeating ∧ u = { s with i := 0, h := 0#2, st := .emittingSymbol }) ∨
      (s.st ≠ .repeating ∧ ∃ hold, currentHold s = some hold ∧ u = afterEventHold hold s) := by
  have hdone {hold} (hhold : currentHold s = some hold) : u = afterEventHold hold s :=
    Host.Outcome.next.inj (h.symm.trans (hs.step_eventHold hhold))
  cases hst : s.st with
  | idle => exact absurd hst hbusy
  | repeating =>
    rw [hs.step_eq hst] at h
    obtain ⟨-, h⟩ := guarded_next h
    cases h
    exact .inl ⟨rfl, rfl⟩
  | emittingSymbol =>
    rw [hs.step_eq hst] at h
    obtain ⟨-, -, hold, hemit, -⟩ := execEmit_cases h
    have hhold : currentHold s = some hold := by simpa [currentHold, hst] using hemit
    exact .inr ⟨nofun, hold, hhold, hdone hhold⟩
  | syncPulse =>
    have hhold : currentHold s = some (syncHold s) := by simp [currentHold, hst]
    exact .inr ⟨nofun, _, hhold, hdone hhold⟩

/-- A hold begins no telegram: `NEXT` counts the one that has been sent (R147). -/
theorem telegramsBegun_afterHold (hst : s.st ≠ .repeating) (hreps : s.reps.toNat ≤ 128) :
    telegramsBegun (afterHold s) = telegramsBegun s := by
  obtain ⟨st, i, h, hst', heq⟩ | ⟨-, hk, heq⟩ | ⟨-, heq⟩ := afterHold_cases s
  all_goals rw [heq]
  · have hne : st ≠ .repeating := fun h => hst (hst' h)
    simp [telegramsBegun, hst, hne]
  · have hnext : (s.k + 1#7).toNat = s.k.toNat + 1 := by bv_omega
    simp [telegramsBegun, hst, hnext]
  · simp [telegramsBegun, hst]

theorem telegramsBegun_afterEventHold (hst : s.st ≠ .repeating) (hreps : s.reps.toNat ≤ 128) :
    telegramsBegun (afterEventHold hold s) = telegramsBegun s := by
  have hst' : (holdEvent hold.1 hold.2 (holdSource s)).st ≠ .repeating := by simpa using hst
  rw [afterEventHold, telegramsBegun_afterHold hst' (by simpa using hreps)]
  simp [telegramsBegun]

/-- A step of a request at the event level is a run of the tick level: one step where a telegram begins, and elsewhere two
steps and the ticks that pass. -/
theorem Undisturbed.step_atTickLevel (hs : Undisturbed s) (hbusy : s.st ≠ .idle) (hreps : s.reps.toNat ≤ 128)
    (h : step s = .next u) : Undisturbed u ∧ u.reps = s.reps ∧
      ∃ m, runSteps m (atTickLevel s) = .next (atTickLevel u) ∧
        m + telegramsBegun u + s.now = 2 + telegramsBegun s + u.now := by
  obtain ⟨hst, rfl⟩ | ⟨hst, hold, hhold, rfl⟩ := hs.step_cases hbusy h
  · refine ⟨{ hs with }, rfl, 1, ?_, ?_⟩
    · have hstep : step (atTickLevel s) = exec .repeating (atTickLevel s) := by
        rw [step_sequencer (s := atTickLevel s) hs.agenda_empty hs.no_hold, show (atTickLevel s).st = _ from hst]
      exact (runSteps_one _).trans (hstep.trans (if_pos ⟨hst, hs.no_hold⟩))
    · simp only [telegramsBegun, hst, if_true, reduceCtorEq, if_false]
      omega
  · refine ⟨undisturbed_afterEventHold hs, afterEventHold_reps hold s, _, hs.hold_atTickLevel hhold, ?_⟩
    have hnow := afterEventHold_now hold s
    rw [telegramsBegun_afterEventHold hst hreps]
    omega

theorem BusyRun.head {n : Nat} (h : BusyRun (n + 1) s t) :
    ∃ u, s.st ≠ .idle ∧ step s = .next u ∧ BusyRun n u t := by
  obtain ⟨hrun, hbusy⟩ := h
  obtain ⟨c, hc, hst⟩ := hbusy 0 n.succ_pos
  cases hc
  cases hstep : step s with
  | next u =>
    rw [runSteps_succ hstep] at hrun
    refine ⟨u, hst, rfl, hrun, fun j hj => ?_⟩
    obtain ⟨c, hc, hst⟩ := hbusy (j + 1) (Nat.succ_lt_succ hj)
    exact ⟨c, (runSteps_succ hstep j).symm.trans hc, hst⟩
  | fault r => simp [runSteps, hstep] at hrun
  | refused r => simp [runSteps, hstep] at hrun

/-- A run within a request at the event level is a run of the tick level (R177), of two steps for each of its steps and one
for each tick, less one step for each telegram it begins: `REPEATING` is one step at either level. -/
theorem BusyRun.atTickLevel {n : Nat} : ∀ {s : State}, BusyRun n s t → Undisturbed s → s.reps.toNat ≤ 128 →
    ∃ m, runSteps m (atTickLevel s) = .next (atTickLevel t) ∧
      m + telegramsBegun t + s.now = 2 * n + telegramsBegun s + t.now := by
  induction n with
  | zero =>
    intro s hrun _ _
    cases hrun.run
    exact ⟨0, rfl, by omega⟩
  | succ n ih =>
    intro s hrun hs hreps
    obtain ⟨u, hbusy, hstep, hrest⟩ := hrun.head
    obtain ⟨hu, hsame, k, hk, hkcount⟩ := hs.step_atTickLevel hbusy hreps hstep
    obtain ⟨m, hm, hmcount⟩ := ih hrest hu (hsame ▸ hreps)
    exact ⟨k + m, (runSteps_add hk).trans hm, by omega⟩

end

/-- Settles O36: the event-level step performs the hold at the position. -/
theorem tickLevelHoldAgreesWithEventLevel : Obligations.TickLevelHoldAgreesWithEventLevel := by
  unfold Obligations.TickLevelHoldAgreesWithEventLevel
  intro s u i hi htiming hag hhact hst h
  obtain ⟨s, hevent, rfl⟩ := exists_atTickLevel htiming
  have hback : { atTickLevel s with build := { (atTickLevel s).build with timing := .event } } = s := by
    rw [atTickLevel, ← hevent]
  rw [hback] at h
  have hs : Undisturbed s := ⟨hag, hhact, hevent⟩
  have hu : { u with build := (atTickLevel s).build } = atTickLevel u := by
    rw [atTickLevel, atTickLevel, exec_build h]
  have hat : s.st ≠ .repeating ∧ s.st ≠ .idle ∧ step s = .next u := by
    obtain rfl | rfl := hi
    · have hst : s.st = .emittingSymbol := hst
      exact ⟨by simp [hst], by simp [hst], (hs.step_eq hst).trans h⟩
    · have hst : s.st = .syncPulse := hst
      exact ⟨by simp [hst], by simp [hst], (hs.step_eq hst).trans h⟩
  obtain ⟨hholds, hbusy, hstep⟩ := hat
  obtain ⟨hrepeating, -⟩ | ⟨-, hold, hhold, rfl⟩ := hs.step_cases hbusy hstep
  · exact absurd hrepeating hholds
  · rw [hu]
    exact hs.hold_atTickLevel hhold

/-- A request sends at most 128 telegrams (R23, R133). -/
theorem GatePasses.count_le {rep limit : Word} (hg : GatePasses rep limit) : 2 ^ rep.toInt.toNat ≤ 128 := by
  obtain ⟨-, h7, -⟩ := hg
  calc 2 ^ rep.toInt.toNat ≤ 2 ^ 7 := Nat.pow_le_pow_right (by decide) (by omega)
    _ = 128 := rfl

/-- A request has begun all its telegrams where it ends. -/
theorem telegramsBegun_afterTelegrams {s : State} (trits : List Trit) (hpos : 0 < s.reps.toNat)
    (hreps : s.reps.toNat ≤ 128) : telegramsBegun (afterTelegrams trits s) = s.reps.toNat := by
  have hk : (BitVec.ofNat 7 (s.reps.toNat - 1)).toNat + 1 = s.reps.toNat := by
    rw [BitVec.toNat_ofNat]
    omega
  exact hk

/-- Settles O43: the event-level run of the request, taken to the tick level; of its steps only each `REPEATING` stays
one. -/
theorem tickLevelRequestAgreesWithTx : Obligations.TickLevelRequestAgreesWithTx := by
  unfold Obligations.TickLevelRequestAgreesWithTx
  intro v s hst hhact htiming hag hg
  obtain ⟨s, hevent, rfl⟩ := exists_atTickLevel htiming
  obtain ⟨trits, ht⟩ := exists_tritsOf_encodeAcc s.build.txOrder s.code
  let r : Request := ⟨s.pin, s.code, s.period, s.repeatExp⟩
  have hs : Undisturbed s := ⟨hag, hhact, hevent⟩
  have hreps : (acceptedRequest r s).reps.toNat = 2 ^ s.repeatExp.toInt.toNat := acceptedRequest_reps r s hg
  have hle : (acceptedRequest r s).reps.toNat ≤ 128 := hreps.trans_le hg.count_le
  have hpos : 0 < (acceptedRequest r s).reps.toNat := hreps ▸ Nat.two_pow_pos _
  obtain ⟨m, hrun, hcount⟩ := (acceptedRequest_run hs r hg ht).atTickLevel { hs with } hle
  have hm : m = (101 + 128 * s.period.toNat * Config.ticksPerUs) * 2 ^ s.repeatExp.toInt.toNat := by
    have hbegun : telegramsBegun (acceptedRequest r s) = 0 := rfl
    have hstart : (acceptedRequest r s).now = s.now := rfl
    have hperiod : r.period = s.period := rfl
    have hrep : r.rep = s.repeatExp := rfl
    rw [telegramsBegun_afterTelegrams trits hpos hle, afterTelegrams_now r s hg (length_of_tritsAt ht), hreps, hbegun,
      hstart, hperiod, hrep] at hcount
    linarith
  exact ⟨_, _, startRequest_accept hst hg, hm ▸ hrun, execTx_accept hst hhact hg ht⟩

end Sys2Proof.Machine
end

section
/-! THE HOST'S OPERATIONS: register writes and reads, `STATUS`, and `START` (R190 to R193, R197). -/

namespace Sys2Proof.Machine

/-- Settles O3: the arm of each number in the register file. -/
theorem hostWriteStoresOneRegister : Obligations.HostWriteStoresOneRegister := by
  unfold Obligations.HostWriteStoresOneRegister
  intro v s
  exact ⟨rfl, rfl, rfl, rfl, rfl, rfl, rfl, rfl⟩

/-- Settles O4: the arm of each number in the register file. -/
theorem hostReadReturnsRegister : Obligations.HostReadReturnsRegister := by
  unfold Obligations.HostReadReturnsRegister
  intro x s
  exact ⟨rfl, rfl, rfl, rfl, rfl, rfl, rfl⟩

/-! ## `STATUS` (R27, R193) -/

/-- `STATUS` as a number: `RESULT` above the bit of `BUSY` (R27). -/
theorem statusWord_toNat (s : State) : (statusWord s).toNat = 2 * (resultBits s.result).toNat + (busy s).toNat := by
  rw [statusWord]
  generalize busy s = b
  cases s.result <;> cases b <;> rfl

/-- `BUSY` as a number (R27). -/
theorem busy_toNat (s : State) : (busy s).toNat = if s.st = .idle then 0 else 1 := by
  rw [busy]
  cases s.st <;> rfl

/-- Settles O5: a result is shown only in `Idle`, so with `BUSY` set the code of `RESULT` is 0. -/
theorem readStatusReturnsBusyAndResult : Obligations.ReadStatusReturnsBusyAndResult := by
  unfold Obligations.ReadStatusReturnsBusyAndResult
  intro x s
  refine ⟨statusWord s, rfl, ?_, fun hs => ?_⟩
  · rw [statusWord_toNat, busy_toNat]
    cases s.result <;> rfl
  · rw [statusWord_toNat, busy_toNat]
    by_cases hst : s.st = .idle
    · rw [if_pos hst]
      cases s.result <;> decide
    · rw [if_neg hst, (hs.inRequest hst).no_result]
      decide

/-! ## `START` (R192) -/

/-- Settles O11: the accepted and the rejected request, from the sampled registers. -/
theorem startSamplesAndGatesRequest : Obligations.StartSamplesAndGatesRequest := by
  unfold Obligations.StartSamplesAndGatesRequest
  intro v s hst
  refine ⟨fun hg => ?_, fun hg => ?_⟩
  · refine ⟨encTemps s.code s.tmp.t, _, reps_toNat hg.1 hg.2.1, ?_⟩
    have hstart : exec (.start v) s = .next (acceptRequest (sampleRequest s)) := startRequest_accept hst hg
    rw [hstart, ← encTemps_a s.code s.tmp.t]
    rfl
  · have hstart : exec (.start v) s = .next (raiseMalformed (sampleRequest s)) := startRequest_reject hst hg
    rw [hstart, raiseMalformed, ← hst]
    rfl

end Sys2Proof.Machine
end

section
/-! TEXT FIELDS: the sign of a field, what its characters after the sign read as, and which those are: hexadecimal,
decimal digits, or neither (R195, log 15). -/

namespace Sys2Proof.Machine

/-! ## Digits -/

theorem isDigit_ofNat {d : Nat} (hd : d < 10) : (Char.ofNat (48 + d)).isDigit = true := by
  interval_cases d <;> rfl

theorem toNat_ofNat_digit {d : Nat} (hd : d < 10) : (Char.ofNat (48 + d)).toNat - 48 = d := by
  interval_cases d <;> rfl

theorem exists_digit_of_isDigit {c : Char} (hc : c.isDigit = true) : ∃ d, d < 10 ∧ Char.ofNat (48 + d) = c := by
  obtain ⟨h48, h57⟩ : 48 ≤ c.toNat ∧ c.toNat ≤ 57 := by
    simpa [Char.isDigit, UInt32.le_iff_toNat_le] using hc
  refine ⟨c.toNat - 48, by omega, ?_⟩
  rw [Nat.add_sub_cancel' h48, Char.ofNat_toNat]

theorem digitChars_ne_nil {ds : List Nat} (hne : ds ≠ []) : digitChars ds ≠ [] := by
  rwa [digitChars, Ne, List.map_eq_nil_iff]

theorem isDigit_of_mem_digitChars {ds : List Nat} (hds : ∀ d ∈ ds, d < 10) {c : Char} (hc : c ∈ digitChars ds) :
    c.isDigit = true := by
  obtain ⟨d, hd, rfl⟩ := List.mem_map.1 hc
  exact isDigit_ofNat (hds d hd)

/-- Characters that are all digits are the digits of numbers. -/
theorem exists_digitChars {cs : List Char} (hcs : ∀ c ∈ cs, c.isDigit = true) :
    ∃ ds, (∀ d ∈ ds, d < 10) ∧ digitChars ds = cs := by
  induction cs with
  | nil => exact ⟨[], nofun, rfl⟩
  | cons c cs ih =>
    obtain ⟨d, hd, rfl⟩ := exists_digit_of_isDigit (hcs c List.mem_cons_self)
    obtain ⟨ds, hds, rfl⟩ := ih fun c hc => hcs c (List.mem_cons_of_mem _ hc)
    exact ⟨d :: ds, List.forall_mem_cons.2 ⟨hd, hds⟩, rfl⟩

/-- The value of decimal digits, most significant first (R195). -/
def decimalValue (ds : List Nat) : Nat := ds.foldl (fun a d => 10 * a + d) 0

theorem foldl_digitChars {ds : List Nat} (hds : ∀ d ∈ ds, d < 10) :
    (digitChars ds).foldl (fun a c => 10 * a + (c.toNat - 48)) 0 = decimalValue ds := by
  rw [digitChars, List.foldl_map]
  exact List.foldl_ext _ _ 0 fun a d hd => by rw [toNat_ofNat_digit (hds d hd)]

theorem decimalDigits_digitChars {ds : List Nat} (hne : ds ≠ []) (hds : ∀ d ∈ ds, d < 10) :
    decimalDigits (digitChars ds) = some (decimalValue ds) := by
  have hall : (digitChars ds).all Char.isDigit = true := List.all_eq_true.2 fun _ => isDigit_of_mem_digitChars hds
  have hcond : (!(digitChars ds).isEmpty && (digitChars ds).all Char.isDigit) = true := by
    simp [hall, digitChars_ne_nil hne]
  rw [decimalDigits, if_pos hcond, foldl_digitChars hds]

/-- Only digits have a decimal value. -/
theorem decimalDigits_eq_none {cs : List Char}
    (h : ∀ ds : List Nat, ds ≠ [] → (∀ d ∈ ds, d < 10) → cs ≠ digitChars ds) : decimalDigits cs = none := by
  refine if_neg fun hcond => ?_
  obtain ⟨hne, hall⟩ : cs ≠ [] ∧ ∀ c ∈ cs, c.isDigit = true := by simpa using hcond
  obtain ⟨ds, hds, rfl⟩ := exists_digitChars hall
  exact h ds (fun hnil => hne (by rw [hnil]; rfl)) hds rfl

/-! ## Hexadecimal numbers -/

/-- The form of a hexadecimal number after its sign (log 15). -/
def HexForm (cs : List Char) : Prop :=
  ∃ (x : Char) (ds : List Char), cs = '0' :: x :: ds ∧ (x = 'x' ∨ x = 'X') ∧ ds ≠ [] ∧
    ∀ d ∈ ds, d.isDigit = true ∨ ('a' ≤ d ∧ d ≤ 'f') ∨ ('A' ≤ d ∧ d ≤ 'F')

theorem isHexDigit_iff (c : Char) :
    isHexDigit c = true ↔ c.isDigit = true ∨ ('a' ≤ c ∧ c ≤ 'f') ∨ ('A' ≤ c ∧ c ≤ 'F') := by
  simp [isHexDigit, or_assoc]

theorem isHexNumber_iff (cs : List Char) : isHexNumber cs = true ↔ HexForm cs := by
  constructor
  · intro h
    unfold isHexNumber at h
    split at h
    · next x d ds =>
      obtain ⟨hx, hds⟩ := Bool.and_eq_true_iff.1 h
      exact ⟨x, d :: ds, rfl, by simpa using hx, List.cons_ne_nil d ds,
        fun c hc => (isHexDigit_iff c).1 (List.all_eq_true.1 hds c hc)⟩
    · cases h
  · rintro ⟨x, ds, rfl, hx, hne, hds⟩
    obtain ⟨d, ds, rfl⟩ := List.exists_cons_of_ne_nil hne
    exact Bool.and_eq_true_iff.2 ⟨by simpa using hx, List.all_eq_true.2 fun c hc => (isHexDigit_iff c).2 (hds c hc)⟩

/-- Digits are no hexadecimal number: `x` is no digit. -/
theorem not_hexForm_digitChars {ds : List Nat} (hds : ∀ d ∈ ds, d < 10) : ¬ HexForm (digitChars ds) := by
  rintro ⟨x, r, hcs, hx, -⟩
  have hdigit : x.isDigit = true := isDigit_of_mem_digitChars hds (by simp [hcs])
  obtain rfl | rfl := hx <;> cases hdigit

/-- A hexadecimal field is a hexadecimal number with or without a minus. -/
theorem isHexField_iff (cs : List Char) : IsHexField cs ↔ HexForm cs ∨ ∃ r, cs = '-' :: r ∧ HexForm r := by
  constructor
  · rintro ⟨sign, x, ds, rfl, rfl | rfl, h⟩
    · exact .inl ⟨x, ds, rfl, h⟩
    · exact .inr ⟨_, rfl, x, ds, rfl, h⟩
  · rintro (⟨x, ds, rfl, h⟩ | ⟨r, rfl, x, ds, rfl, h⟩)
    · exact ⟨[], x, ds, rfl, .inl rfl, h⟩
    · exact ⟨['-'], x, ds, rfl, .inr rfl, h⟩

/-! ## A field's sign and the characters after it -/

/-- What the characters after the sign read as. -/
def signedField (neg : Bool) (digits : List Char) : FieldValue :=
  if isHexNumber digits then .outside
  else match decimalDigits digits with
    | some v => .value (if neg then -(v : Int) else v)
    | none => .malformed

theorem readField_minus (r : List Char) : readField ('-' :: r) = signedField true r := rfl

theorem readField_unsigned {cs : List Char} (h : ∀ r, cs ≠ '-' :: r) : readField cs = signedField false cs := by
  unfold readField
  split
  next neg digits hsplit =>
    split at hsplit
    · exact absurd rfl (h _)
    · cases hsplit; rfl

theorem signedField_hex (neg : Bool) {cs : List Char} (h : HexForm cs) : signedField neg cs = .outside :=
  if_pos ((isHexNumber_iff cs).2 h)

theorem signedField_digitChars (neg : Bool) {ds : List Nat} (hne : ds ≠ []) (hds : ∀ d ∈ ds, d < 10) :
    signedField neg (digitChars ds) =
      .value (if neg then -(decimalValue ds : Int) else decimalValue ds) := by
  rw [signedField, if_neg (mt (isHexNumber_iff _).1 (not_hexForm_digitChars hds)), decimalDigits_digitChars hne hds]

theorem signedField_malformed (neg : Bool) {cs : List Char} (hhex : ¬ HexForm cs)
    (hdec : ∀ ds : List Nat, ds ≠ [] → (∀ d ∈ ds, d < 10) → cs ≠ digitChars ds) : signedField neg cs = .malformed := by
  rw [signedField, if_neg (mt (isHexNumber_iff cs).1 hhex), decimalDigits_eq_none hdec]

theorem digitChars_ne_minus {ds : List Nat} (hds : ∀ d ∈ ds, d < 10) (r : List Char) : digitChars ds ≠ '-' :: r := by
  intro h
  have hminus : '-'.isDigit = true := isDigit_of_mem_digitChars hds (h ▸ List.mem_cons_self)
  cases hminus

theorem HexForm.ne_minus {cs : List Char} (h : HexForm cs) (r : List Char) : cs ≠ '-' :: r := by
  obtain ⟨x, ds, rfl, -⟩ := h
  simp

/-- Settles O9: a field with and without a minus; after the sign it is hexadecimal, decimal, or neither. -/
theorem textFieldIsSignedDecimal : Obligations.TextFieldIsSignedDecimal := by
  unfold Obligations.TextFieldIsSignedDecimal
  refine ⟨fun ds hne hds => ⟨?_, ?_⟩, fun cs hcs => ?_, fun cs hhex hdec => ?_⟩
  · rw [readField_unsigned (digitChars_ne_minus hds), signedField_digitChars false hne hds]
    rfl
  · rw [readField_minus, signedField_digitChars true hne hds]
    rfl
  · obtain h | ⟨r, rfl, h⟩ := (isHexField_iff cs).1 hcs
    · rw [readField_unsigned h.ne_minus, signedField_hex false h]
    · rw [readField_minus, signedField_hex true h]
  · rw [isHexField_iff] at hhex
    obtain ⟨hplain, hsigned⟩ := not_or.1 hhex
    by_cases hminus : ∃ r, cs = '-' :: r
    · obtain ⟨r, rfl⟩ := hminus
      rw [readField_minus]
      refine signedField_malformed true (fun h => hsigned ⟨r, rfl, h⟩) fun ds hne hds hr => ?_
      exact (hdec ds hne hds).2 (congrArg _ hr)
    · rw [readField_unsigned (not_exists.1 hminus)]
      exact signedField_malformed false hplain fun ds hne hds => (hdec ds hne hds).1

end Sys2Proof.Machine
end

section
/-! THE TEXT PARSER: what it makes of each of the four fields, and of the line (R195, R81). -/

namespace Sys2Proof.Machine

/-! ## One field -/

/-- The least value of the register that field `j` of a line is forwarded to (R81). -/
def leastOf (j : Nat) : Int := if j < 3 then 0 else -(2 ^ 31)

/-- The greatest value of that register (R81). -/
def greatestOf (j : Nat) : Int := if j < 3 then 2 ^ 32 - 1 else 2 ^ 31 - 1

/-- What stands for a missing or malformed field `j` (R84). -/
def fallbackOf (j : Nat) : Word :=
  [Config.fallbackPin, Config.fallbackCode, Config.fallbackPeriod, Config.fallbackRepeat].getD j 0

/-- What stands for a negative integer in an unsigned field `j`; the signed field has none (log 33). -/
def freeOf (n j : Nat) : Word :=
  [Config.parsedPin n, Config.parsedCode n, Config.parsedPeriod n, Config.fallbackRepeat].getD j 0

/-- What the parser makes of field `j`, none where the spec leaves the line out (R195, U15). -/
def parsedField (fields : List (List Char)) (n j : Nat) : Option Word :=
  fieldWord (leastOf j) (greatestOf j) (fallbackOf j) (freeOf n j) fields[j]?

/-- Register `j` has no room for `z`, or 32 bits have none (R195). -/
def TooLarge (j : Nat) (z : Int) : Prop := ¬ (-(2 ^ 31) ≤ z ∧ z < (if j < 3 then 2 ^ 32 else 2 ^ 31))

section
variable {fields : List (List Char)} {n j : Nat} {f : List Char} {z : Int}

theorem tooLarge_iff (j : Nat) (z : Int) : TooLarge j z ↔ z < -(2 ^ 31) ∨ greatestOf j < z := by
  unfold TooLarge greatestOf
  split <;> omega

theorem parsedField_fallback (h : fields[j]? = none ∨ ∃ f, fields[j]? = some f ∧ readField f = .malformed) :
    parsedField fields n j = some (fallbackOf j) := fieldWord_fallback h _ _ _ _

theorem parsedField_outside (hf : fields[j]? = some f) (hr : readField f = .outside) :
    parsedField fields n j = none := by
  rw [parsedField, hf, fieldWord_outside hr]

theorem parsedField_tooLarge (hf : fields[j]? = some f) (hr : readField f = .value z) (hz : TooLarge j z) :
    parsedField fields n j = none := by
  rw [parsedField, hf, fieldWord_value hr, if_pos ((tooLarge_iff j z).1 hz)]

theorem parsedField_value (hf : fields[j]? = some f) (hr : readField f = .value z) (hz : ¬ TooLarge j z) :
    parsedField fields n j = some (if z < leastOf j then freeOf n j else BitVec.ofInt 32 z) := by
  rw [parsedField, hf, fieldWord_value hr, if_neg (mt (tooLarge_iff j z).2 hz), apply_ite some]

/-- A field within its register is forwarded as its value; only an unsigned one can be below its least value. -/
theorem parsedField_value_of_nonneg (hf : fields[j]? = some f) (hr : readField f = .value z) (hz : ¬ TooLarge j z)
    (hneg : j < 3 → 0 ≤ z) : parsedField fields n j = some (BitVec.ofInt 32 z) := by
  have hleast : ¬ z < leastOf j := by
    unfold TooLarge at hz
    unfold leastOf
    split <;> omega
  rw [parsedField_value hf hr hz, if_neg hleast]

/-- A field that is missing, malformed, or within its register is forwarded as some word. -/
theorem exists_parsedField
    (h : ∀ f, fields[j]? = some f → readField f ≠ .outside ∧ ∀ z, readField f = .value z → ¬ TooLarge j z) :
    ∃ w, parsedField fields n j = some w := by
  cases hf : fields[j]? with
  | none => exact ⟨_, parsedField_fallback (.inl hf)⟩
  | some f =>
    obtain ⟨hout, hfits⟩ := h f hf
    cases hr : readField f with
    | value z => exact ⟨_, parsedField_value hf hr (hfits z hr)⟩
    | malformed => exact ⟨_, parsedField_fallback (.inr ⟨f, hf, hr⟩)⟩
    | outside => exact absurd hr hout

/-! ## The line -/

/-- The request record of a line of at most four fields is its four parsed fields (R81). -/
theorem parseFields_eq_some {value : Nat → Word} (hlen : fields.length ≤ 4)
    (h : ∀ j, j < 4 → parsedField fields n j = some (value j)) :
    parseFields fields n = some ⟨value 0, value 1, value 2, value 3⟩ := by
  have hpin : fieldWord 0 (2 ^ 32 - 1) Config.fallbackPin (Config.parsedPin n) fields[0]? = _ := h 0 (by decide)
  have hcode : fieldWord 0 (2 ^ 32 - 1) Config.fallbackCode (Config.parsedCode n) fields[1]? = _ := h 1 (by decide)
  have hperiod : fieldWord 0 (2 ^ 32 - 1) Config.fallbackPeriod (Config.parsedPeriod n) fields[2]? = _ :=
    h 2 (by decide)
  have hrep : fieldWord (-(2 ^ 31)) (2 ^ 31 - 1) Config.fallbackRepeat Config.fallbackRepeat fields[3]? = _ :=
    h 3 (by decide)
  rw [parseFields, if_neg (Nat.not_lt.2 hlen), hpin, hcode, hperiod, hrep]

/-- A line that is not left out has at most four fields, and each is forwarded as some word. -/
theorem parseFields_cases {r : Request} (h : parseFields fields n = some r) :
    fields.length ≤ 4 ∧ parsedField fields n 0 = some r.pin ∧ parsedField fields n 1 = some r.code ∧
      parsedField fields n 2 = some r.period ∧ parsedField fields n 3 = some r.rep := by
  unfold parseFields at h
  split at h
  · cases h
  · next hlen =>
    split at h
    · next hpin hcode hperiod hrep =>
      cases h
      exact ⟨Nat.not_lt.1 hlen, hpin, hcode, hperiod, hrep⟩
    · cases h

/-- A fifth field, or one of the four that is left out, leaves the line out (U15). -/
theorem parseFields_eq_none (h : 4 < fields.length ∨ ∃ j, j < 4 ∧ parsedField fields n j = none) :
    parseFields fields n = none := by
  cases hr : parseFields fields n with
  | none => rfl
  | some r =>
    obtain ⟨hlen, hpin, hcode, hperiod, hrep⟩ := parseFields_cases hr
    obtain hfifth | ⟨j, hj, hnone⟩ := h
    · omega
    · interval_cases j
      · simp [hnone] at hpin
      · simp [hnone] at hcode
      · simp [hnone] at hperiod
      · simp [hnone] at hrep

/-- A line without a negative integer in an unsigned field takes no free value (log 33). -/
theorem takesFreeValue_eq_false
    (h : ∀ j f z, j < 3 → fields[j]? = some f → readField f = .value z → 0 ≤ z) : takesFreeValue fields = false := by
  rw [← Bool.not_eq_true, takesFreeValue_iff]
  rintro ⟨j, f, z, hj, hf, hr, hz⟩
  exact absurd (h j f z hj hf hr) (Int.not_le.2 hz)

end

/-- Settles O8: every field is forwarded as some word: its fallback, or its value where no negative integer stands in an
unsigned field. -/
theorem parseForwardsFieldsOrFallbacks : Obligations.ParseForwardsFieldsOrFallbacks := by
  unfold Obligations.ParseForwardsFieldsOrFallbacks
  intro s text fields _ hline hlen hfits
  have hfit : ∀ j f z, fields[j]? = some f → readField f = .value z → ¬ TooLarge j z :=
    fun j f z hf hr => not_not_intro ((hfits j f hf).2 z hr)
  have hword : ∀ j, ∃ w, parsedField fields s.free j = some w :=
    fun j => exists_parsedField fun f hf => ⟨(hfits j f hf).1, fun z => hfit j f z hf⟩
  choose value hvalue using hword
  refine ⟨value, s.free + (if takesFreeValue fields then 1 else 0), ?_, fun j _ h => ?_, fun j f z _ hf hr hneg => ?_,
    fun hneg => ?_⟩
  · have hparse := parseFields_eq_some hlen fun j _ => hvalue j
    have hexec : exec (.parse text) s = execParse text s := rfl
    rw [hexec, execParse, splitFields_isLineOf hline, hparse]
    rfl
  · exact Option.some.inj ((hvalue j).symm.trans (parsedField_fallback h))
  · exact Option.some.inj ((hvalue j).symm.trans (parsedField_value_of_nonneg hf hr (hfit j f z hf hr) hneg))
  · rw [takesFreeValue_eq_false hneg]
    rfl

/-- Settles O10: each of these lines has a fifth field, or a field that gives no word. -/
theorem parseRefusesWhatSpecLeavesOut : Obligations.ParseRefusesWhatSpecLeavesOut := by
  unfold Obligations.ParseRefusesWhatSpecLeavesOut
  intro s text fields _ hline hout
  have hparse : parseFields fields s.free = none := by
    refine parseFields_eq_none (hout.imp_right ?_)
    rintro ⟨j, f, hj, hf, hr | ⟨z, hr, hz⟩⟩
    · exact ⟨j, hj, parsedField_outside hf hr⟩
    · exact ⟨j, hj, parsedField_tooLarge hf hr hz⟩
  have hexec : exec (.parse text) s = execParse text s := rfl
  rw [hexec, execParse, splitFields_isLineOf hline, hparse]

end Sys2Proof.Machine
end

section
/-! RESET AND HAZARDS: which operations take time, what the reset input cuts and restores, and `START` within a request
(R175, R240, R243, R250, R258). -/

namespace Sys2Proof.Machine

section
variable {s t u : State} {hold : Level × BitVec 5}

/-! ## `NOW` (R175, R258) -/

theorem gateRequest_now (s : State) : (gateRequest s).now = s.now := by
  unfold gateRequest
  split <;> rfl

theorem next_now (hu : u.now = s.now) (h : (.next u : Out) = .next t) : t.now = s.now := by
  cases h; exact hu

theorem unlessInHold_now (hu : u.now = s.now) (h : unlessInHold s u = .next t) : t.now = s.now := by
  obtain ⟨-, rfl⟩ := unlessInHold_cases h
  exact hu

/-! ## What `RESET` does to the whole state (R240, R243) -/

/-- A hold in progress leaves its wait so far in the trace, and nothing else changes. -/
theorem cutHold_eq (s : State) :
    cutHold s = { s with trace := s.trace ++ (if s.hact then [TraceEvent.wait s.held.toNat] else []) } := by
  unfold cutHold
  split <;> simp [emitHeld, Config.ticksPerUs]

/-- The end of a transmission: one `Set` of its line, none in `Idle`. -/
theorem dropLine_eq (s : State) :
    dropLine s = { s with
      out := if s.st = .idle then s.out else false
      lines := if s.st = .idle then s.lines else linesWrite s.lPin.toNat false s.lines
      trace := s.trace ++ (if s.st = .idle then [] else [TraceEvent.set s.lPin false]) } := by
  unfold dropLine
  split <;> simp [setOutput]

/-- `RESET` in a hold of a transmission: the wait so far, the line low, the registers restored. -/
theorem execReset_inHold (hhact : s.hact = true) (hst : s.st ≠ .idle) :
    exec .reset s = .next (resetRegisters (forceLow (emitHeld s))) := by
  have hcut : cutHold s = emitHeld s := if_pos hhact
  have hdrop : dropLine (emitHeld s) = forceLow (emitHeld s) := if_neg hst
  rw [exec, execReset, hcut, hdrop]

/-! ## The reset input within a hold of the event level (R243) -/

@[simp] theorem holdSource_trace (s : State) : (holdSource s).trace = s.trace := by rw [holdSource_frame]
@[simp] theorem holdSource_lines (s : State) : (holdSource s).lines = s.lines := by rw [holdSource_frame]

theorem ne_idle_of_currentHold (hhold : currentHold s = some hold) : s.st ≠ .idle := fun hst => by
  simp [currentHold, hst] at hhold

/-- The hold at the sequencer's position, in every state that has one: its level and its duration (R136,
R142). -/
theorem exists_currentHold
    (hat : (s.st = .emittingSymbol ∧ sentTrit s.build.txOrder s.acc s.i.val ≠ 3) ∨ s.st = .syncPulse) :
    ∃ m, currentHold s =
        some (if s.st = .syncPulse then decide (s.h = 0#2) else decide (s.h.toNat % 2 = 0), m) ∧
      duration m s.lPeriod * Config.ticksPerUs = currentHoldTicks s := by
  obtain ⟨hst, htrit⟩ | hst := hat
  · obtain ⟨m, hhold, hm⟩ := emitHold_cases htrit
    exact ⟨m, by simp [currentHold, hst, hhold], by simp [currentHoldTicks, hst, duration, hm, Nat.mul_assoc]⟩
  · have hm : (syncMult s.h).toNat = if s.h = 0#2 then 1 else 31 := by
      unfold syncMult
      split <;> rfl
    exact ⟨syncMult s.h, by simp [currentHold, hst, syncHold],
      by simp [currentHoldTicks, hst, duration, hm, Nat.mul_assoc]⟩

/-- The time that has passed in a part of a hold fits in the model's count of it (R172). -/
theorem partOfHold_held_toNat {n : Nat} (hle : n ≤ duration hold.2 s.lPeriod * Config.ticksPerUs) :
    (partOfHold hold n s).held.toNat = n := by
  have hlt := duration_lt hold.2 s.lPeriod
  rw [Config.ticksPerUs] at hle
  rw [partOfHold_held, BitVec.toNat_ofNat, Nat.mod_eq_of_lt (by omega)]

/-- What a cut hold leaves in the trace: its `Set` and the wait so far (R243). -/
theorem emitHeld_partOfHold_trace {us : Nat}
    (hle : us * Config.ticksPerUs ≤ duration hold.2 s.lPeriod * Config.ticksPerUs) :
    (emitHeld (partOfHold hold (us * Config.ticksPerUs) s)).trace = s.trace ++ [.set s.lPin hold.1, .wait us] := by
  rw [emitHeld_trace, partOfHold_held_toNat hle, Nat.mul_div_cancel us (by decide)]
  simp

/-- A reset that comes within the next hold, or at its end, is taken in the part of the hold that has passed by then. -/
theorem step_resetAfter_inHold {n : Nat} (rest : List Turn) (htiming : s.build.timing = .event) (hhact : s.hact = false)
    (hhold : currentHold s = some hold) (hpos : 0 < n) (hle : n ≤ duration hold.2 s.lPeriod * Config.ticksPerUs) :
    step { s with agenda := .resetAfter n :: rest } =
      .next (resetRegisters (forceLow (emitHeld (partOfHold hold n (holdSource { s with agenda := rest }))))) := by
  have hst := ne_idle_of_currentHold hhold
  have hhold' : currentHold { s with agenda := .resetAfter n :: rest } = some hold := hhold
  have hturn : fetch { s with agenda := .resetAfter n :: rest } =
      .run .reset (partOfHold hold n (holdSource { s with agenda := rest })) := by
    show resetAfterTurn n rest { s with agenda := .resetAfter n :: rest } = _
    rw [resetAfterTurn, if_neg (by omega), if_neg (by simp [hhact]), if_neg hst, hhold', htiming]
    exact if_pos hle
  rw [step_of_fetch_run hturn]
  exact execReset_inHold rfl (by simpa using hst)

end

/-- Settles O12: `START` runs in `Idle` only. -/
theorem startWhileBusyIsRefused : Obligations.StartWhileBusyIsRefused := by
  unfold Obligations.StartWhileBusyIsRefused
  intro v s hst
  exact if_neg hst

/-- Settles O56: operation by operation, the ones that are not listed leave `NOW`. -/
theorem onlyHoldsTakeTime : Obligations.OnlyHoldsTakeTime := by
  unfold Obligations.OnlyHoldsTakeTime
  intro i s t h hnow
  cases i with
  | emit | sync | sym0 | sym1 | sym2 | tick | hold l m | tx pin code period rep => simp
  | wrPin v | wrCode v | wrPeriod v | wrRepeat v | wrRepLimit v | wrNopCtrl v | wrNopStatus v | wrNopUnused v =>
    exact absurd (next_now (hostWrite_now _ v s) h) hnow
  | rdPin x | rdCode x | rdPeriod x | rdRepeat x | rdRepLimit x | rdZeroCtrl x | rdStatus x | rdZeroUnused x =>
    exact absurd (next_now (u := hostRead _ s) rfl h) hnow
  | start v => exact absurd (startRequest_now h) hnow
  | parse text => exact absurd (execParse_now h) hnow
  | reset => exact absurd (execReset_now h) hnow
  | mask code | encode code | encStep | tritsel | forceLow => exact absurd (unlessInHold_now (by rfl) h) hnow
  | gate => exact absurd (unlessInHold_now (gateRequest_now s) h) hnow
  | accept => exact absurd (unlessInHold_now (u := acceptRequest s) rfl (guarded_next h).2) hnow
  | idle => exact absurd (unlessInHold_now rfl (guarded_next h).2) hnow
  | repeating | nextTelegram | finish => exact absurd (next_now (by rfl) (guarded_next h).2) hnow

/-- Settles O7: a reset input leads to `RESET`, in a hold of the event level to the state that the cut hold leaves; `RESET`
as a whole state is the composition of its three parts. -/
theorem resetInputRestoresRegisters : Obligations.ResetInputRestoresRegisters := by
  unfold Obligations.ResetInputRestoresRegisters
  refine ⟨fun s w rest => rfl, fun s us rest htiming hhact hat hpos hle => ?_, fun s => ?_⟩
  · obtain ⟨m, hhold, hticks⟩ := exists_currentHold hat
    rw [← hticks] at hle
    have hpos' : 0 < us * Config.ticksPerUs := Nat.mul_pos hpos (by decide)
    refine ⟨_, step_resetAfter_inHold rest htiming hhact hhold hpos' hle, ?_, ?_, rfl, rfl, rfl, rfl, rfl, rfl, rfl, rfl,
      rfl, ?_, fun x => ?_⟩
    · rw [resetRegisters_trace, forceLow, setOutput_trace, emitHeld_partOfHold_trace (by simpa using hle)]
      simp
    · simp [forceLow]
    · simp [forceLow]
    · simp [forceLow, linesRead_linesWrite, linesWrite_linesWrite]
  · refine ⟨Config.resetK s.free, Config.resetI s.free, Config.resetH s.free, Config.resetReps s.free,
      Config.resetAcc s.free, Config.resetLPin s.free, Config.resetLPeriod s.free, Config.resetDly s.free, 0#37,
      s.free + 1, ?_⟩
    rw [exec, execReset, cutHold_eq, dropLine_eq]
    rfl

end Sys2Proof.Machine
end
